-- ==== Sys2Proof/Word.lean ====
section
/-! DEFINITION. Sys2Proof/Word.lean: the two bit-vector types of the machine.

`Nibble` is the 4-bit unsigned datum of every register, input and bus value (spec rules R12, R20,
R33, R130); `Code` is the 6-bit token code of the hardware tape (rule R80). The arithmetic on them
stands in Machine/Operands.lean and Machine/Flags.lean. -/

namespace Sys2Proof

/-- A 4-bit unsigned value 0..15: a register, an input, a bus value (rules R20, R33, R130). -/
abbrev Nibble := BitVec 4

/-- A 6-bit token code, bit 0 the least significant (rules R12, R80). -/
abbrev Code := BitVec 6

end Sys2Proof
end

