-- ==== Sys2Proof/Config.lean ====
section
/-! DEFINITION. Sys2Proof/Config.lean: the parameters of rule R8 that are constants here.

The tape, the inputs and the cap are supplied per run and stand in `State` (Machine/State.lean) and
`Launch` (Syntax.lean). The machine leaves no value free: rule R62 makes a run a function of what is
supplied, so this file holds no opaque constant. The most tokens of an instruction (`MAX_TOKENS`,
rule R8) is unbounded: an instruction is any finite list. -/

namespace Sys2Proof.Config

/-- `NIN`, the number of inputs (rules R8, R33). -/
def numInputs : Nat := 5

/-- The largest 4-bit value, where the adder saturates (rules R12, R22, R121). -/
def maxValue : Nat := 15

/-- The reference value of `CAP` (rules R8, R193); unaudited, and a claim should not rest on it. -/
def referenceCap : Nat := 1000000

/-- The default of `INIT_X`: what every register holds at reset (rule R41; the spec's decision D5,
assumption log 1). -/
def initRegister : Nibble := 0

/-- `TIME_PER_CYCLE`, in hundredths of the unnamed time-unit: 8.25 (rules R8, R254). The spec names
it as a constant that no rule reads, and nothing in this model reads it. -/
def timePerCycleHundredths : Nat := 825

end Sys2Proof.Config
end

