-- ==== Sys2Proof/Syntax.lean ====
section
/-! DEFINITION. Sys2Proof/Syntax.lean: tokens, instructions, programs, and what the host supplies.

`Instr` is the closed vocabulary of rule R73 and UNKNOWN (rule R77), one constructor per mnemonic of
spec/opcode_table.json; the seven UNKNOWN rows of the table are one constructor, because rule R77
has "one UNKNOWN value for all such tokens". A machine instruction is an ordered list of tokens
(rules R70, R71). -/

namespace Sys2Proof

/-- One signal token (rule R73), or UNKNOWN (rules R77, R89). -/
inductive Instr where
  | r1 | r2 | r3 | r4 | r5 | r6 | r7 | r8   -- register read, rules R101-R108
  | w1 | w2 | w3 | w4 | w5 | w6 | w7 | w8   -- register write, rules R145-R152
  | g1 | g2 | g3 | g4 | g5                  -- input read, rules R109-R113
  | add | sub | lt | gt | eq | overflow     -- ALU, rules R121-R126
  | j1 | j2                                 -- latch set, rules R161, R162
  | e1 | e2                                 -- latch clear, rules R163, R164
  | halt                                    -- rule R170
  | unknown                                 -- rule R172
  deriving DecidableEq, Repr

/-- An instruction: an ordered list of tokens, repetition allowed, no upper bound (rules R70, R71). -/
abbrev Instruction := List Instr

/-- A coded instruction: the list of its codes; the count `k` of rule R83 is the list's length. -/
abbrev CodedInstruction := List Code

/-- A register index 1..8 (rules R20, R74). -/
inductive Reg where
  | x1 | x2 | x3 | x4 | x5 | x6 | x7 | x8
  deriving DecidableEq, Repr

/-- An input index 1..5 (rules R33, R74). -/
inductive Input where
  | g1 | g2 | g3 | g4 | g5
  deriving DecidableEq, Repr

/-- A latch index 1..2 (rules R28, R74). -/
inductive Latch where
  | l1 | l2
  deriving DecidableEq, Repr

/-- What the host supplies once, at construction (rules R200, R201): the program as token lists, the
input vector as it comes (integers, in any number: rule R215 checks them), and the cap. -/
structure Launch where
  program : List Instruction
  inputs  : List Int
  cap     : Nat
  deriving DecidableEq, Repr

end Sys2Proof
end

