-- ==== Sys2Proof/WellFormed.lean ====
section
/-! DEFINITION. Sys2Proof/WellFormed.lean: the checks on syntax.

A token has no field that could be wrong and no encoding is illegal (rules R72, R78, R174), so every
instruction is well-formed. What can be ill-formed is a launch: rule R215 gives its three checks. -/

namespace Sys2Proof

/-- Every token is well-formed: "There are no illegal encodings" (rule R78). -/
def Instr.wellFormed (_ : Instr) : Bool := true

/-- Every list of tokens is a well-formed instruction, the empty list included (rule R70). -/
def wellFormedInstruction (i : Instruction) : Bool := i.all Instr.wellFormed

/-- The tape has at least one instruction: `LEN >= 1` (rule R215). -/
def Launch.programNonempty (l : Launch) : Bool := !l.program.isEmpty

/-- The input vector has exactly 5 values (rules R33, R215). -/
def Launch.inputCountOk (l : Launch) : Bool := l.inputs.length == Config.numInputs

/-- Each input is in 0..15 (rules R33, R215). -/
def Launch.inputsInRange (l : Launch) : Bool :=
  l.inputs.all fun v => decide (0 ≤ v) && decide (v ≤ (Config.maxValue : Int))

/-- A launch the machine can be constructed from (rules R215, R238). -/
def Launch.wellFormed (l : Launch) : Bool :=
  l.programNonempty && l.inputCountOk && l.inputsInRange

end Sys2Proof
end

