-- ==== Sys2Proof/Decode.lean ====
section
/-! DEFINITION. Sys2Proof/Decode.lean: the token code, the program text, and their inverses.

The 6-bit code is that of rules R80-R83 and opcode_table.json; decoding is total and rejects nothing
(rule R81). The text syntax is that of rules R76, R77, R79, R85-R87, on lists of characters. -/

namespace Sys2Proof

/-- `code[5:3]`, the family field (rule R80). -/
def codeFamily (c : Code) : Nat := (c.toNat / 8) % 8

/-- `code[2:0]`, the index field (rule R80). -/
def codeIndex (c : Code) : Nat := c.toNat % 8

/-- Family `000`: register read (rule R80). -/
def decodeRegisterRead : Nat → Instr
  | 0 => .r1 | 1 => .r2 | 2 => .r3 | 3 => .r4 | 4 => .r5 | 5 => .r6 | 6 => .r7 | 7 => .r8
  | _ => .unknown

/-- Family `001`: register write (rule R80). -/
def decodeRegisterWrite : Nat → Instr
  | 0 => .w1 | 1 => .w2 | 2 => .w3 | 3 => .w4 | 4 => .w5 | 5 => .w6 | 6 => .w7 | 7 => .w8
  | _ => .unknown

/-- Family `010`: input read; indices 5, 6, 7 are unassigned (rules R80, R81). -/
def decodeInputRead : Nat → Instr
  | 0 => .g1 | 1 => .g2 | 2 => .g3 | 3 => .g4 | 4 => .g5
  | _ => .unknown

/-- Family `011`: ALU; indices 6, 7 are unassigned (rules R80, R81). -/
def decodeAlu : Nat → Instr
  | 0 => .add | 1 => .sub | 2 => .lt | 3 => .gt | 4 => .eq | 5 => .overflow
  | _ => .unknown

/-- Family `100`: control; indices 5, 6, 7 are unassigned (rules R80, R81). -/
def decodeControl : Nat → Instr
  | 0 => .j1 | 1 => .j2 | 2 => .e1 | 3 => .e2 | 4 => .halt
  | _ => .unknown

/-- The token of a code. Total: the 32 assigned codes give their tokens, every other code UNKNOWN
(rule R81). -/
def decodeCode (c : Code) : Instr :=
  match codeFamily c with
  | 0 => decodeRegisterRead (codeIndex c)
  | 1 => decodeRegisterWrite (codeIndex c)
  | 2 => decodeInputRead (codeIndex c)
  | 3 => decodeAlu (codeIndex c)
  | 4 => decodeControl (codeIndex c)
  | _ => .unknown

/-- The instruction of a coded instruction (rule R83). -/
def decodeInstruction (cs : CodedInstruction) : Instruction := cs.map decodeCode

/-- The counted form `(k, c_1, ..., c_k)` of rule R83, read off the front of a list of codes: the
instruction and the codes that follow it, or none where fewer than `k` codes are left. -/
def decodeCounted (k : Nat) (cs : List Code) : Option (Instruction × List Code) :=
  if k ≤ cs.length then some (decodeInstruction (cs.take k), cs.drop k) else none

/-- The instruction the decoder reads from a table row's bits: one token code in the low six bits.
Bits above the code's six must be 0 (rule R80: a code has six bits). -/
def decodeTableWord (nbits w : Nat) : Option Instr :=
  if w < 2 ^ nbits ∧ w < 64 then some (decodeCode (BitVec.ofNat 6 w)) else none

/-- The code of a token; every UNKNOWN encodes as 63 (rules R80, R81). -/
def encode : Instr → Code
  | .r1 => 0 | .r2 => 1 | .r3 => 2 | .r4 => 3 | .r5 => 4 | .r6 => 5 | .r7 => 6 | .r8 => 7
  | .w1 => 8 | .w2 => 9 | .w3 => 10 | .w4 => 11 | .w5 => 12 | .w6 => 13 | .w7 => 14 | .w8 => 15
  | .g1 => 16 | .g2 => 17 | .g3 => 18 | .g4 => 19 | .g5 => 20
  | .add => 24 | .sub => 25 | .lt => 26 | .gt => 27 | .eq => 28 | .overflow => 29
  | .j1 => 32 | .j2 => 33 | .e1 => 34 | .e2 => 35 | .halt => 36
  | .unknown => 63

/-- The codes of an instruction, in order (rule R83). -/
def encodeInstruction (i : Instruction) : CodedInstruction := i.map encode

/-- The codes of a program, instruction by instruction, position 0 first (rules R25, R83). -/
def encodeProgram (p : List Instruction) : List CodedInstruction := p.map encodeInstruction

/-- One row of spec/opcode_table.json: a code selects it when `code and mask = pattern` (rule R90). -/
structure OpcodeRow where
  mask    : Code
  pattern : Code
  token   : Instr
  deriving DecidableEq, Repr

/-- The row's test of a code (rule R90). -/
def rowSelects (r : OpcodeRow) (c : Code) : Bool := (c &&& r.mask) == r.pattern

/-- The rows of the register reads and writes. -/
def registerRows : List OpcodeRow :=
  [⟨0x3F, 0x00, .r1⟩, ⟨0x3F, 0x01, .r2⟩, ⟨0x3F, 0x02, .r3⟩, ⟨0x3F, 0x03, .r4⟩,
   ⟨0x3F, 0x04, .r5⟩, ⟨0x3F, 0x05, .r6⟩, ⟨0x3F, 0x06, .r7⟩, ⟨0x3F, 0x07, .r8⟩,
   ⟨0x3F, 0x08, .w1⟩, ⟨0x3F, 0x09, .w2⟩, ⟨0x3F, 0x0A, .w3⟩, ⟨0x3F, 0x0B, .w4⟩,
   ⟨0x3F, 0x0C, .w5⟩, ⟨0x3F, 0x0D, .w6⟩, ⟨0x3F, 0x0E, .w7⟩, ⟨0x3F, 0x0F, .w8⟩]

/-- The rows of the input reads, the ALU and control. -/
def signalRows : List OpcodeRow :=
  [⟨0x3F, 0x10, .g1⟩, ⟨0x3F, 0x11, .g2⟩, ⟨0x3F, 0x12, .g3⟩, ⟨0x3F, 0x13, .g4⟩, ⟨0x3F, 0x14, .g5⟩,
   ⟨0x3F, 0x18, .add⟩, ⟨0x3F, 0x19, .sub⟩, ⟨0x3F, 0x1A, .lt⟩, ⟨0x3F, 0x1B, .gt⟩,
   ⟨0x3F, 0x1C, .eq⟩, ⟨0x3F, 0x1D, .overflow⟩,
   ⟨0x3F, 0x20, .j1⟩, ⟨0x3F, 0x21, .j2⟩, ⟨0x3F, 0x22, .e1⟩, ⟨0x3F, 0x23, .e2⟩, ⟨0x3F, 0x24, .halt⟩]

/-- The seven UNKNOWN rows (rule R90). -/
def unknownRows : List OpcodeRow :=
  [⟨0x3F, 0x15, .unknown⟩, ⟨0x3E, 0x16, .unknown⟩, ⟨0x3E, 0x1E, .unknown⟩, ⟨0x3F, 0x25, .unknown⟩,
   ⟨0x3E, 0x26, .unknown⟩, ⟨0x38, 0x28, .unknown⟩, ⟨0x30, 0x30, .unknown⟩]

/-- The 39 rows of spec/opcode_table.json, which partition the 64 codes (rule R90). -/
def opcodeRows : List OpcodeRow := registerRows ++ signalRows ++ unknownRows

/-- The exact text of a token; UNKNOWN prints as the empty string, its text not being kept (rules
R73, R87). -/
def spelling : Instr → List Char
  | .r1 => ['R', '1'] | .r2 => ['R', '2'] | .r3 => ['R', '3'] | .r4 => ['R', '4']
  | .r5 => ['R', '5'] | .r6 => ['R', '6'] | .r7 => ['R', '7'] | .r8 => ['R', '8']
  | .w1 => ['W', '1'] | .w2 => ['W', '2'] | .w3 => ['W', '3'] | .w4 => ['W', '4']
  | .w5 => ['W', '5'] | .w6 => ['W', '6'] | .w7 => ['W', '7'] | .w8 => ['W', '8']
  | .g1 => ['G', '1'] | .g2 => ['G', '2'] | .g3 => ['G', '3'] | .g4 => ['G', '4'] | .g5 => ['G', '5']
  | .add => ['+'] | .sub => ['-'] | .lt => ['<'] | .gt => ['>'] | .eq => ['=']
  | .overflow => ['o', 'v', 'e', 'r', 'f', 'l', 'o', 'w']
  | .j1 => ['J', '1'] | .j2 => ['J', '2'] | .e1 => ['E', '1'] | .e2 => ['E', '2']
  | .halt => ['H', 'A', 'L', 'T']
  | .unknown => []

/-- The 32 known tokens (rule R73). -/
def vocabulary : List Instr :=
  [.r1, .r2, .r3, .r4, .r5, .r6, .r7, .r8, .w1, .w2, .w3, .w4, .w5, .w6, .w7, .w8,
   .g1, .g2, .g3, .g4, .g5, .add, .sub, .lt, .gt, .eq, .overflow, .j1, .j2, .e1, .e2, .halt]

/-- The token of a text: one of the 32 spellings, character for character, else UNKNOWN, the empty
text included (rules R76, R77). -/
def parseToken (text : List Char) : Instr :=
  (vocabulary.find? fun t => spelling t == text).getD .unknown

/-- White space inside a line: space or tab (rule R79 says "whitespace"; assumption log 11). -/
def isBlankChar (c : Char) : Bool := c == ' ' || c == '\t'

/-- The texts between commas; a doubled or trailing comma gives an empty text (rules R77, R79). -/
def splitCommas : List Char → List (List Char)
  | [] => [[]]
  | c :: cs =>
    match c == ',', splitCommas cs with
    | true, ts => [] :: ts
    | false, [] => [[c]]
    | false, t :: ts => (c :: t) :: ts

/-- The instruction of a program line: the first white-space-delimited field split at commas, the
rest a comment (rules R79, R85). A blank line is one empty token (rule R77). A line that begins with
white space and is not blank gives none: the spec leaves it to the loader (rule R85, note N14). -/
def parseLine (line : List Char) : Option Instruction :=
  if (line.head?.any isBlankChar) && !line.all isBlankChar then none
  else some ((splitCommas (line.takeWhile fun c => !isBlankChar c)).map parseToken)

/-- The program of a list of lines, line `p` giving instruction `p` (rules R79, R86: whether blank
lines are filtered first is the loader's business). -/
def parseProgram (lines : List (List Char)) : Option (List Instruction) := lines.mapM parseLine

/-- The canonical spelling of an instruction: its tokens joined by commas (rule R87). -/
def printLine : Instruction → List Char
  | [] => []
  | [t] => spelling t
  | t :: ts => spelling t ++ ',' :: printLine ts

end Sys2Proof
end

