-- ==== Sys2Proof/Machine/State.lean ====
section
/-! DEFINITION. Sys2Proof/Machine/State.lean: the machine's state, its stop reasons, and reset.

"Machine state: register file + input vector + jump latches + tape position" (spec/10_state.md), the
Run Loop's bookkeeping (rules R37, R38), the parameters of the run (rule R40), the events told to the
observer (rules R196, R199), and the model's own cycle-scoped pair `bus`, `phase` (assumption log 3). -/

namespace Sys2Proof.Machine

/-- The register file `x[1..8]`, each 4 bits (rule R20). -/
structure RegFile where
  x1 : Nibble
  x2 : Nibble
  x3 : Nibble
  x4 : Nibble
  x5 : Nibble
  x6 : Nibble
  x7 : Nibble
  x8 : Nibble
  deriving DecidableEq, Repr

/-- The input vector `g[1..5]`, each 4 bits (rule R33). -/
structure Inputs where
  g1 : Nibble
  g2 : Nibble
  g3 : Nibble
  g4 : Nibble
  g5 : Nibble
  deriving DecidableEq, Repr

/-- The jump latch pair `L[1]`, `L[2]`, each one bit (rules R28, R30, R225). -/
structure Latches where
  l1 : Bool
  l2 : Bool
  deriving DecidableEq, Repr

/-- Why a run ended (rule R38). -/
inductive StopReason where
  | halted
  | cap
  deriving DecidableEq, Repr

/-- Whether the Run Loop is still in its loop, or has left it and why (rules R38, R190, R202). -/
inductive RunStatus where
  | running
  | ended (why : StopReason)
  deriving DecidableEq, Repr

/-- An event told to the observer (rules R12, R196, R199). -/
inductive Event where
  | notify (cycle pass : Nat) (value : Nibble)
  | final (value : Nibble) (cycles : Nat) (why : StopReason)
  deriving DecidableEq, Repr

/-- Which half of a cycle a token runs in: step 1 of rule R180, where it is evaluated and its value
offered to the bus, or step 2, where it is applied with the finished bus value. The model's own. -/
inductive Phase where
  | evaluate
  | apply
  deriving DecidableEq, Repr

/-- The instruction tape with the position on it (rules R8, R25, R27, R40): the instructions, each as its
codes (rule R83), and the index of the current one. The position is "a number below `LEN`" (rule R25) by
its type, so a tape has at least one instruction (`LEN >= 1`, rule R215) and no position is off it. -/
structure Tape where
  /-- The instructions, constant for a run (rule R40). -/
  instructions : List CodedInstruction
  /-- The tape position, 0-based (rule R25). -/
  pc : Fin instructions.length
  deriving DecidableEq, Repr

/-- The state of the machine, plain data. -/
structure State where
  /-- The register file (rule R20). -/
  x : RegFile
  /-- The input vector, constant for a run (rules R33, R34). -/
  g : Inputs
  /-- The jump latches (rule R28). -/
  latch : Latches
  /-- The tape and the position on it; none before the host has constructed the machine (rules R25, R40,
  R200; log 2). -/
  tape : Option Tape
  /-- The cycle counter (rule R37). -/
  n : Nat
  /-- The iteration cap, constant for a run (rules R40, R193). -/
  cap : Nat
  /-- The Run Loop's status and stop reason (rules R38, R202). -/
  status : RunStatus
  /-- The events raised so far, oldest first (rules R196, R199). -/
  events : List Event
  /-- The bus inside a cycle; 0 between cycles (rule R39; the model's own scratch, log 3). -/
  bus : Nibble
  /-- The half of the cycle being run; `evaluate` between cycles (the model's own scratch, log 3). -/
  phase : Phase
  deriving DecidableEq, Repr

/-- The reasons to fault: none. "The core raises no exception of any kind" (rule R210), so this type
has no constructor; nothing raises one (safe: a closed type that no step can answer with). -/
inductive Fault where
  deriving DecidableEq, Repr

/-- The reasons to refuse. No token and no step refuses (rules R78, R210, R224): "the only refusals are at
construction" (rule R215). -/
inductive Refusal where
  /-- Raised by an arm of `exec` whose instruction has no meaning yet; no arm is left so (safe). -/
  | notModelled (mnemonic : String)
  /-- Raised by `construct` where the program has no instruction (`LEN = 0`, rule R215) (safe). -/
  | emptyTape
  /-- Raised by `construct` where the input vector is not of length 5 (rule R215) (safe). -/
  | inputCount
  /-- Raised by `construct` where an input is outside 0..15 (rule R215) (safe). -/
  | inputOutOfRange
  deriving DecidableEq, Repr

/-- What one step answers in this model. -/
abbrev Outcome := Host.Outcome State Fault Refusal

/-- The registers at reset: `INIT_X`, by default all 0 (rule R41; log 1). -/
def RegFile.reset : RegFile :=
  ⟨Config.initRegister, Config.initRegister, Config.initRegister, Config.initRegister,
   Config.initRegister, Config.initRegister, Config.initRegister, Config.initRegister⟩

/-- The machine right after reset, before the host has supplied a program and inputs (rules R41,
R230): registers, latches and counter at the values of rule R41 (log 1); no tape, inputs 0 and the
reference cap stand for what the host supplies (log 2). The position is 0 as soon as there is a tape
(`Tape.ofProgram`). -/
def State.reset : State where
  x := RegFile.reset
  g := ⟨0, 0, 0, 0, 0⟩
  latch := ⟨false, false⟩
  tape := none
  n := 0
  cap := Config.referenceCap
  status := .running
  events := []
  bus := 0
  phase := .evaluate

end Sys2Proof.Machine
end

