-- ==== Sys2Proof/Machine/Operands.lean ====
section
/-! DEFINITION. Sys2Proof/Machine/Operands.lean: how tokens reach their operands, and the arithmetic.

Every operand is a cell named by the digit in the token's name (rule R74), the fixed ALU pair
`x[1]`, `x[2]` (rule R120), or the bus (rule R135). All arithmetic is unsigned, 4 bits, saturating
(rule R127). -/

namespace Sys2Proof.Machine

/-- `x[i]` of a register file (rules R12, R20). -/
def RegFile.get (f : RegFile) : Reg → Nibble
  | .x1 => f.x1 | .x2 => f.x2 | .x3 => f.x3 | .x4 => f.x4
  | .x5 => f.x5 | .x6 => f.x6 | .x7 => f.x7 | .x8 => f.x8

/-- `x[i] <- v`: the whole cell is replaced (rules R12, R52). -/
def RegFile.set (f : RegFile) (i : Reg) (v : Nibble) : RegFile :=
  match i with
  | .x1 => { f with x1 := v } | .x2 => { f with x2 := v }
  | .x3 => { f with x3 := v } | .x4 => { f with x4 := v }
  | .x5 => { f with x5 := v } | .x6 => { f with x6 := v }
  | .x7 => { f with x7 := v } | .x8 => { f with x8 := v }

/-- `g[i]` of an input vector (rules R12, R33). -/
def Inputs.get (v : Inputs) : Input → Nibble
  | .g1 => v.g1 | .g2 => v.g2 | .g3 => v.g3 | .g4 => v.g4 | .g5 => v.g5

/-- `L[k]` of a latch pair (rule R28). -/
def Latches.get (l : Latches) : Latch → Bool
  | .l1 => l.l1 | .l2 => l.l2

/-- `L[k] <- b` (rules R12, R28): the other latch is untouched. -/
def Latches.set (l : Latches) (k : Latch) (b : Bool) : Latches :=
  match k with
  | .l1 => { l with l1 := b }
  | .l2 => { l with l2 := b }

/-- The latch pair as the 2-bit word of rule R28: `L[1]` is bit 0, `L[2]` bit 1. -/
def Latches.word (l : Latches) : BitVec 2 :=
  BitVec.ofNat 2 (l.l1.toNat + 2 * l.l2.toNat)

/-- The operand of `R<i>` (rules R74, R101-R108). -/
def State.readReg (s : State) (i : Reg) : Nibble := s.x.get i

/-- The operand of `G<i>` (rules R74, R109-R113). -/
def State.readInput (s : State) (i : Input) : Nibble := s.g.get i

/-- The left operand of every ALU token: `x[1]` (rule R120). -/
def State.leftOperand (s : State) : Nibble := s.readReg .x1

/-- The right operand of every ALU token: `x[2]` (rule R120). -/
def State.rightOperand (s : State) : Nibble := s.readReg .x2

/-- `TAPE[pc]`: the codes of the current instruction (rule R25). -/
def Tape.current (t : Tape) : CodedInstruction := t.instructions[t.pc]

/-- `TAPE`: the instructions; none before construction (rules R8, R40). `LEN` is this list's length. -/
def State.program (s : State) : List CodedInstruction :=
  match s.tape with
  | some t => t.instructions
  | none => []

/-- `pc` (rule R25); before construction the position that the machine will start from (rule R231). -/
def State.pc (s : State) : Nat :=
  match s.tape with
  | some t => t.pc
  | none => 0

/-- `clamp15(v)` of a value that is never negative: `min(v, 15)` (rules R12, R144). -/
def clamp15 (v : Nat) : Nibble := BitVec.ofNat 4 (min v Config.maxValue)

/-- `sat_add(a, b)`: the sum taken in the naturals, capped at 15 (rules R12, R121). -/
def satAdd (a b : Nibble) : Nibble := clamp15 (a.toNat + b.toNat)

/-- `sat_sub(a, b)`: the difference floored at 0 (rules R12, R122). -/
def satSub (a b : Nibble) : Nibble := if b.toNat ≤ a.toNat then BitVec.ofNat 4 (a.toNat - b.toNat) else 0

/-- The larger of two unsigned values: the bus's aggregation (rules R12, R133). -/
def busMax (a b : Nibble) : Nibble := if a.toNat < b.toNat then b else a

end Sys2Proof.Machine
end

