-- ==== Sys2Proof/Machine/Flags.lean ====
section
/-! DEFINITION. Sys2Proof/Machine/Flags.lean: the comparison and overflow signals.

The machine stores no flags (rule R36): each signal is a value, 0 or 1, computed from the two ALU
operands and offered to the bus in the cycle that names it. -/

namespace Sys2Proof.Machine

/-- `bool(c)`: 1 if the condition holds, else 0 (rule R12). -/
def boolValue (c : Bool) : Nibble := if c then 1 else 0

/-- `<`, unsigned (rule R123). -/
def lessSignal (a b : Nibble) : Nibble := boolValue (decide (a.toNat < b.toNat))

/-- `>`, unsigned (rule R124). -/
def greaterSignal (a b : Nibble) : Nibble := boolValue (decide (b.toNat < a.toNat))

/-- `=` (rule R125). -/
def equalSignal (a b : Nibble) : Nibble := boolValue (decide (a.toNat = b.toNat))

/-- `overflow`: the sum taken in the naturals is above 15 (rule R126). -/
def overflowSignal (a b : Nibble) : Nibble := boolValue (decide (Config.maxValue < a.toNat + b.toNat))

end Sys2Proof.Machine
end

