-- ==== Sys2Proof/Machine/Ops.lean ====
section
/-! DEFINITION. Sys2Proof/Machine/Ops.lean: the named operations every token and the Run Loop use.

THERE IS NO DATA MEMORY (rule R50) and NO EXCEPTION: no trap entry, no saved state, no return from a
trap (rules R210, R214, R216), so no operation here takes an exception or returns from one. The two
ends of a run are `State.endRun`. -/

namespace Sys2Proof.Machine

/-- `gate(S)`: at least one latch is 1, the skip window is open (rules R12, R31, R142). -/
def State.gate (s : State) : Bool := s.latch.get .l1 || s.latch.get .l2

/-- `x[i] <- v` (rule R12). -/
def State.writeReg (s : State) (i : Reg) (v : Nibble) : State := { s with x := s.x.set i v }

/-- `L[k] <- b` (rule R12). -/
def State.setLatch (s : State) (k : Latch) (b : Bool) : State := { s with latch := s.latch.set k b }

/-- A token's value joins the bus: the bus is the maximum of the values offered (rules R130, R133). -/
def State.drive (s : State) (v : Nibble) : State := { s with bus := busMax s.bus v }

/-- The value of a token that is no read token (rule R114). -/
def offersNothing (_ : State) : Nibble := 0

/-- What applying a read token, `HALT` or UNKNOWN does: nothing (rules R140, R170, R172). -/
def appliesNothing (s : State) : State := s

/-- The gating rule (rules R140-R142): a token of the mutable class is a no-op while a latch of the
state it is handed, the threaded state, is 1. -/
def gated (act : State → State) (s : State) : State := if s.gate then s else act s

/-- `W<i>` when not gated: `x[i] <- clamp15(bus)` (rule R144). -/
def writeBus (i : Reg) (s : State) : State := s.writeReg i (clamp15 s.bus.toNat)

/-- `J<k>`: the latch is set if the bus is at least 1, else left as it was (rules R161, R162). -/
def jumpSet (k : Latch) (s : State) : State := if 1 ≤ s.bus.toNat then s.setLatch k true else s

/-- `E<k>`: the latch is cleared, whatever it and the bus hold (rules R163, R164). -/
def jumpClear (k : Latch) (s : State) : State := s.setLatch k false

/-- One token in one half of a cycle (rule R180): in the first half the value the Signal Evaluator
gives it joins the bus (`eval`, rule R100); in the second the Write Applier does its effect with the
finished bus (`apply`, rule R140). No token faults or refuses (rule R210). -/
def signal (eval : State → Nibble) (act : State → State) (s : State) : Outcome :=
  match s.phase with
  | .evaluate => .next (s.drive (eval s))
  | .apply => .next (act s)

/-- Go on with the next state, or stop where the first outcome stops. -/
def andThen (o : Outcome) (f : State → Outcome) : Outcome :=
  match o with
  | .next s => f s
  | .fault r => .fault r
  | .refused r => .refused r

/-- A cycle begins: nothing is on the bus, tokens are evaluated (rules R39, R180 step 1). -/
def State.openCycle (s : State) : State := { s with bus := 0, phase := .evaluate }

/-- The bus is complete: tokens are applied (rule R180 step 2). -/
def State.enterApply (s : State) : State := { s with phase := .apply }

/-- `pc <- (pc + 1) mod LEN` (rules R26, R183): the tape itself is not changed. -/
def Tape.advance (t : Tape) : Tape :=
  { t with pc := ⟨(t.pc + 1) % t.instructions.length, Nat.mod_lt _ (Nat.zero_lt_of_lt t.pc.isLt)⟩ }

/-- The tape sequencer moves the position (rules R26, R183); the bus value is gone (rule R39). -/
def State.advance (s : State) : State :=
  { s with tape := s.tape.map Tape.advance, bus := 0, phase := .evaluate }

/-- An event reaches the observer, which cannot answer (rule R203). -/
def State.emit (s : State) (e : Event) : State := { s with events := s.events ++ [e] }

/-- `n <- n + 1` (rule R190). -/
def State.countCycle (s : State) : State := { s with n := s.n + 1 }

/-- The output register `x[8]` (rules R21, R196). -/
def State.output (s : State) : Nibble := s.readReg .x8

/-- `Notify` if the cycle that began in `before` changed the output register (rules R190, R196): the
cycle's 0-based index, the pass number `n div LEN`, the new value. -/
def State.notifyChange (before s : State) : State :=
  if s.output = before.output then s
  else s.emit (.notify s.n (s.n / s.program.length) s.output)

/-- The run ends: `Final(x[8], n, why)` is raised and the state is frozen (rules R190, R199, R202). -/
def State.endRun (s : State) (why : StopReason) : State :=
  { s with status := .ended why, events := s.events ++ [.final s.output s.n why] }

end Sys2Proof.Machine
end

