-- ==== Sys2Proof/Machine/Alu.lean ====
section
/-! DEFINITION. Sys2Proof/Machine/Alu.lean: the tokens `+` `-` `<` `>` `=` `overflow` (rules R120-R126).

Each is computed from the start-of-cycle `x[1]` (left) and `x[2]` (right), offers its value to the bus
and applies nothing; none is ever gated.  -/

namespace Sys2Proof.Machine

/-- `+` (rule R121). -/
def execAdd (s : State) : Outcome :=
  signal (fun s => satAdd s.leftOperand s.rightOperand) appliesNothing s

/-- `-` (rule R122). -/
def execSub (s : State) : Outcome :=
  signal (fun s => satSub s.leftOperand s.rightOperand) appliesNothing s

/-- `<` (rule R123). -/
def execLt (s : State) : Outcome :=
  signal (fun s => lessSignal s.leftOperand s.rightOperand) appliesNothing s

/-- `>` (rule R124). -/
def execGt (s : State) : Outcome :=
  signal (fun s => greaterSignal s.leftOperand s.rightOperand) appliesNothing s

/-- `=` (rule R125). -/
def execEq (s : State) : Outcome :=
  signal (fun s => equalSignal s.leftOperand s.rightOperand) appliesNothing s

/-- `overflow` (rule R126). -/
def execOverflow (s : State) : Outcome :=
  signal (fun s => overflowSignal s.leftOperand s.rightOperand) appliesNothing s

end Sys2Proof.Machine
end

