-- ==== Sys2Proof/Machine/HaltUnknown.lean ====
section
/-! DEFINITION. Sys2Proof/Machine/HaltUnknown.lean: the tokens `HALT` and UNKNOWN (rules R170-R174).

Both are inert in a cycle. What `HALT` does, it does in the Run Loop's predicate, before a cycle
(`haltNow`, Machine/RunLoop.lean).  -/

namespace Sys2Proof.Machine

/-- `HALT`: `eval = 0`, `apply(S, HALT, b) = S` whether gated or not (rule R170). -/
def execHalt (s : State) : Outcome := signal offersNothing (gated appliesNothing) s

/-- UNKNOWN: reads 0, writes nothing, never an error (rule R172). -/
def execUnknown (s : State) : Outcome := signal offersNothing appliesNothing s

end Sys2Proof.Machine
end

