-- ==== Sys2Proof/Machine/InputRead.lean ====
section
/-! DEFINITION. Sys2Proof/Machine/InputRead.lean: the tokens `G1`..`G5` (rules R109-R113).

Each offers its constant input to the bus and applies nothing; none is ever gated.  -/

namespace Sys2Proof.Machine

/-- `G1`: `eval(S, G1) = g[1]`, `apply(S, G1, b) = S` (rule R109). -/
def execG1 (s : State) : Outcome := signal (fun s => s.readInput .g1) appliesNothing s

/-- `G2`: `eval(S, G2) = g[2]`, `apply(S, G2, b) = S` (rule R110). -/
def execG2 (s : State) : Outcome := signal (fun s => s.readInput .g2) appliesNothing s

/-- `G3`: `eval(S, G3) = g[3]`, `apply(S, G3, b) = S` (rule R111). -/
def execG3 (s : State) : Outcome := signal (fun s => s.readInput .g3) appliesNothing s

/-- `G4`: `eval(S, G4) = g[4]`, `apply(S, G4, b) = S` (rule R112). -/
def execG4 (s : State) : Outcome := signal (fun s => s.readInput .g4) appliesNothing s

/-- `G5`: `eval(S, G5) = g[5]`, `apply(S, G5, b) = S` (rule R113). -/
def execG5 (s : State) : Outcome := signal (fun s => s.readInput .g5) appliesNothing s

end Sys2Proof.Machine
end

