-- ==== Sys2Proof/Machine/LatchControl.lean ====
section
/-! DEFINITION. Sys2Proof/Machine/LatchControl.lean: the tokens `J1` `J2` `E1` `E2` (rules R160-R164).

Each offers nothing to the bus and is never gated, even inside a skip window.  -/

namespace Sys2Proof.Machine

/-- `J1`: `L[1] <- 1` if the bus is at least 1 (rule R161). -/
def execJ1 (s : State) : Outcome := signal offersNothing (jumpSet .l1) s

/-- `J2`: `L[2] <- 1` if the bus is at least 1 (rule R162). -/
def execJ2 (s : State) : Outcome := signal offersNothing (jumpSet .l2) s

/-- `E1`: `L[1] <- 0` (rule R163). -/
def execE1 (s : State) : Outcome := signal offersNothing (jumpClear .l1) s

/-- `E2`: `L[2] <- 0` (rule R164). -/
def execE2 (s : State) : Outcome := signal offersNothing (jumpClear .l2) s

end Sys2Proof.Machine
end

