-- ==== Sys2Proof/Machine/RegisterRead.lean ====
section
/-! DEFINITION. Sys2Proof/Machine/RegisterRead.lean: the tokens `R1`..`R8` (rules R101-R108).

Each offers its register's start-of-cycle value to the bus and applies nothing; none is ever gated.  -/

namespace Sys2Proof.Machine

/-- `R1`: `eval(S, R1) = S.x[1]`, `apply(S, R1, b) = S` (rule R101). -/
def execR1 (s : State) : Outcome := signal (fun s => s.readReg .x1) appliesNothing s

/-- `R2`: `eval(S, R2) = S.x[2]`, `apply(S, R2, b) = S` (rule R102). -/
def execR2 (s : State) : Outcome := signal (fun s => s.readReg .x2) appliesNothing s

/-- `R3`: `eval(S, R3) = S.x[3]`, `apply(S, R3, b) = S` (rule R103). -/
def execR3 (s : State) : Outcome := signal (fun s => s.readReg .x3) appliesNothing s

/-- `R4`: `eval(S, R4) = S.x[4]`, `apply(S, R4, b) = S` (rule R104). -/
def execR4 (s : State) : Outcome := signal (fun s => s.readReg .x4) appliesNothing s

/-- `R5`: `eval(S, R5) = S.x[5]`, `apply(S, R5, b) = S` (rule R105). -/
def execR5 (s : State) : Outcome := signal (fun s => s.readReg .x5) appliesNothing s

/-- `R6`: `eval(S, R6) = S.x[6]`, `apply(S, R6, b) = S` (rule R106). -/
def execR6 (s : State) : Outcome := signal (fun s => s.readReg .x6) appliesNothing s

/-- `R7`: `eval(S, R7) = S.x[7]`, `apply(S, R7, b) = S` (rule R107). -/
def execR7 (s : State) : Outcome := signal (fun s => s.readReg .x7) appliesNothing s

/-- `R8`: `eval(S, R8) = S.x[8]`, `apply(S, R8, b) = S` (rule R108). -/
def execR8 (s : State) : Outcome := signal (fun s => s.readReg .x8) appliesNothing s

end Sys2Proof.Machine
end

