-- ==== Sys2Proof/Machine/RegisterWrite.lean ====
section
/-! DEFINITION. Sys2Proof/Machine/RegisterWrite.lean: the tokens `W1`..`W8` (rules R144-R152).

Each offers nothing to the bus, and writes the bus value to its register unless a latch is 1.  -/

namespace Sys2Proof.Machine

/-- `W1`: `x[1] <- clamp15(bus)` unless gated (rule R145). -/
def execW1 (s : State) : Outcome := signal offersNothing (gated (writeBus .x1)) s

/-- `W2`: `x[2] <- clamp15(bus)` unless gated (rule R146). -/
def execW2 (s : State) : Outcome := signal offersNothing (gated (writeBus .x2)) s

/-- `W3`: `x[3] <- clamp15(bus)` unless gated (rule R147). -/
def execW3 (s : State) : Outcome := signal offersNothing (gated (writeBus .x3)) s

/-- `W4`: `x[4] <- clamp15(bus)` unless gated (rule R148). -/
def execW4 (s : State) : Outcome := signal offersNothing (gated (writeBus .x4)) s

/-- `W5`: `x[5] <- clamp15(bus)` unless gated (rule R149). -/
def execW5 (s : State) : Outcome := signal offersNothing (gated (writeBus .x5)) s

/-- `W6`: `x[6] <- clamp15(bus)` unless gated (rule R150). -/
def execW6 (s : State) : Outcome := signal offersNothing (gated (writeBus .x6)) s

/-- `W7`: `x[7] <- clamp15(bus)` unless gated (rule R151). -/
def execW7 (s : State) : Outcome := signal offersNothing (gated (writeBus .x7)) s

/-- `W8`: `x[8] <- clamp15(bus)` unless gated (rule R152). -/
def execW8 (s : State) : Outcome := signal offersNothing (gated (writeBus .x8)) s

end Sys2Proof.Machine
end

