-- ==== Sys2Proof/Machine/Dispatch.lean ====
section
/-! DEFINITION. Sys2Proof/Machine/Dispatch.lean: one arm per token, each one call of its meaning. -/

namespace Sys2Proof.Machine

def exec (i : Instr) (s : State) : Host.Outcome State Fault Refusal :=
  match i with
  | .r1 => Sys2Proof.Machine.execR1 s
  | .r2 => Sys2Proof.Machine.execR2 s
  | .r3 => Sys2Proof.Machine.execR3 s
  | .r4 => Sys2Proof.Machine.execR4 s
  | .r5 => Sys2Proof.Machine.execR5 s
  | .r6 => Sys2Proof.Machine.execR6 s
  | .r7 => Sys2Proof.Machine.execR7 s
  | .r8 => Sys2Proof.Machine.execR8 s
  | .w1 => Sys2Proof.Machine.execW1 s
  | .w2 => Sys2Proof.Machine.execW2 s
  | .w3 => Sys2Proof.Machine.execW3 s
  | .w4 => Sys2Proof.Machine.execW4 s
  | .w5 => Sys2Proof.Machine.execW5 s
  | .w6 => Sys2Proof.Machine.execW6 s
  | .w7 => Sys2Proof.Machine.execW7 s
  | .w8 => Sys2Proof.Machine.execW8 s
  | .g1 => Sys2Proof.Machine.execG1 s
  | .g2 => Sys2Proof.Machine.execG2 s
  | .g3 => Sys2Proof.Machine.execG3 s
  | .g4 => Sys2Proof.Machine.execG4 s
  | .g5 => Sys2Proof.Machine.execG5 s
  | .add => Sys2Proof.Machine.execAdd s
  | .sub => Sys2Proof.Machine.execSub s
  | .lt => Sys2Proof.Machine.execLt s
  | .gt => Sys2Proof.Machine.execGt s
  | .eq => Sys2Proof.Machine.execEq s
  | .overflow => Sys2Proof.Machine.execOverflow s
  | .j1 => Sys2Proof.Machine.execJ1 s
  | .j2 => Sys2Proof.Machine.execJ2 s
  | .e1 => Sys2Proof.Machine.execE1 s
  | .e2 => Sys2Proof.Machine.execE2 s
  | .halt => Sys2Proof.Machine.execHalt s
  | .unknown => Sys2Proof.Machine.execUnknown s

end Sys2Proof.Machine
end

