-- ==== Sys2Proof/Machine/RunLoop.lean ====
section
/-! DEFINITION. Sys2Proof/Machine/RunLoop.lean: the Clock Driver, the Run Loop and the launch.

One model step is one turn of the Run Loop of rule R190: it runs one cycle (rule R180), or ends the
run (rules R191, R193), or, after the end, does nothing (rule R202). It answers a next state for every
state: the only refusals are those of `construct` (rules R215, R224). -/

namespace Sys2Proof.Machine

/-- The fetch `TAPE[pc]`, decoded; none only before construction (rules R12, R25, R83). -/
def State.fetch (s : State) : Option Instruction := s.tape.map fun t => decodeInstruction t.current

/-- The tokens of an instruction, one after the other, left to right, each seeing the state the
tokens before it left (rules R61, R182). -/
def runTokens : Instruction → State → Outcome
  | [], s => .next s
  | t :: ts, s => andThen (exec t s) (runTokens ts)

/-- One clock cycle on an instruction (rule R180): every token is evaluated, then every token is
applied with that one bus value, then the position advances. It knows nothing of halting (R186). -/
def clockCycle (i : Instruction) (s : State) : Outcome :=
  andThen (runTokens i s.openCycle) fun evaluated =>
    andThen (runTokens i evaluated.enterApply) fun applied =>
      .next applied.advance

/-- `halt_now(S)`: the current instruction is exactly `[HALT]` and both latches are 0 (rule R191). -/
def haltNow (i : Instruction) (s : State) : Bool := i == [.halt] && !s.gate

/-- What the Run Loop does after the cycle that began in `before`: it notifies, then counts (R190). -/
def finishCycle (before s : State) : State := (State.notifyChange before s).countCycle

/-- One turn of the Run Loop on the current instruction (rules R190-R194). -/
def runLoopTurn (i : Instruction) (s : State) : Outcome :=
  if haltNow i s then .next (s.endRun .halted)
  else if s.n < s.cap then andThen (clockCycle i s) fun t => .next (finishCycle s t)
  else .next (s.endRun .cap)

/-- One step of the machine: a turn of the Run Loop while the run goes on, nothing after its end
(rules R190, R202; log 4) and nothing before the host has constructed a machine (rule R230; log 2). -/
def runLoopStep (s : State) : Outcome :=
  match s.status, s.fetch with
  | .running, some i => runLoopTurn i s
  | .running, none => .next s
  | .ended _, _ => .next s

/-- The tape of a program, with the position at its first instruction (rules R41, R231); none where the
program has no instruction, `LEN = 0` (rule R215). -/
def Tape.ofProgram : List Instruction → Option Tape
  | [] => none
  | i :: is => some { instructions := encodeProgram (i :: is), pc := ⟨0, Nat.zero_lt_succ _⟩ }

/-- The input vector of five values that rule R215 lets through. -/
def inputsOf (a b c d e : Int) : Inputs :=
  ⟨BitVec.ofNat 4 a.toNat, BitVec.ofNat 4 b.toNat, BitVec.ofNat 4 c.toNat,
   BitVec.ofNat 4 d.toNat, BitVec.ofNat 4 e.toNat⟩

/-- Construction, which is reset (rules R200, R201, R230): the state of rule R41 with what the host
supplies, or one of the three refusals of rule R215. `initX` is the parameter `INIT_X` (rule R8). -/
def construct (l : Launch) (initX : RegFile := RegFile.reset) : Outcome :=
  match Tape.ofProgram l.program, l.inputs with
  | none, _ => .refused .emptyTape
  | some t, [a, b, c, d, e] =>
    if l.inputsInRange then
      .next { State.reset with x := initX, g := inputsOf a b c d e, tape := some t, cap := l.cap }
    else .refused .inputOutOfRange
  | some _, _ => .refused .inputCount

/-- The tape with `codes` in the place of the current instruction. -/
def Tape.replaceCurrent (t : Tape) (codes : CodedInstruction) : Tape where
  instructions := t.instructions.set t.pc codes
  pc := t.pc.cast List.length_set.symm

/-- The tape of one instruction. -/
def Tape.single (codes : CodedInstruction) : Tape := { instructions := [codes], pc := 0 }

/-- A tape on which `codes` stands at the position: in the place of the current instruction, or, before
construction, as the only one. The run is going on and has a cycle left under its cap (log 17). -/
def State.placeInstruction (s : State) (codes : CodedInstruction) : State :=
  { s with
    tape := match s.tape with
      | some t => some (t.replaceCurrent codes)
      | none => some (Tape.single codes)
    cap := if s.n < s.cap then s.cap else s.n + 1
    status := .running }

end Sys2Proof.Machine
end

