-- ==== Sys2Proof/Machine/Step.lean ====
section
/-! DEFINITION. Sys2Proof/Machine/Step.lean: one step, and the placing of one instruction. -/

namespace Sys2Proof.Machine

/-- One step of the machine: one turn of the Run Loop (rule R190). -/
def step (s : State) : Host.Outcome State Fault Refusal := runLoopStep s

/-- The state with the one-token instruction of a table row's bits where the next step fetches. It
stands for the host's supplying of a program at construction (rule R200; assumption log 2). -/
def State.withFetchWord (s : State) (_nbits w : Nat) : State :=
  s.placeInstruction [BitVec.ofNat 6 w]

end Sys2Proof.Machine
end

