-- ==== Sys2Proof/Safety.lean ====
section
/-! DEFINITION. Sys2Proof/Safety.lean: the spec's own pseudocode beside the machine, and what a sound
state is, in the terms the statements use.

`Reference` transcribes the pseudocode of rules R100, R130, R140, R180 and R190 over whole states,
apart from the two-half cycle that `exec` runs; the statements compare the two. `State.Inv` is what
holds between the cycles of a run. No step is unsafe by itself: the machine never faults (R210). -/

namespace Sys2Proof.Reference

open Sys2Proof.Machine

/-- `eval(S, t)`, one case per token (rule R100). -/
def evalToken (s : State) : Instr → Nibble
  | .r1 => s.x.x1
  | .r2 => s.x.x2
  | .r3 => s.x.x3
  | .r4 => s.x.x4
  | .r5 => s.x.x5
  | .r6 => s.x.x6
  | .r7 => s.x.x7
  | .r8 => s.x.x8
  | .g1 => s.g.g1
  | .g2 => s.g.g2
  | .g3 => s.g.g3
  | .g4 => s.g.g4
  | .g5 => s.g.g5
  | .add => BitVec.ofNat 4 (min (s.x.x1.toNat + s.x.x2.toNat) 15)
  | .sub => BitVec.ofNat 4 (s.x.x1.toNat - s.x.x2.toNat)
  | .lt => if s.x.x1.toNat < s.x.x2.toNat then 1 else 0
  | .gt => if s.x.x2.toNat < s.x.x1.toNat then 1 else 0
  | .eq => if s.x.x1 = s.x.x2 then 1 else 0
  | .overflow => if 15 < s.x.x1.toNat + s.x.x2.toNat then 1 else 0
  | .w1 | .w2 | .w3 | .w4 | .w5 | .w6 | .w7 | .w8 => 0
  | .j1 | .j2 | .e1 | .e2 | .halt | .unknown => 0

/-- `bus(S, I)`: the maximum of the tokens' values, 0 of none (rules R12, R130, R134). -/
def busValue (s : State) (i : Instruction) : Nat :=
  i.foldr (fun t b => max (evalToken s t).toNat b) 0

/-- The mutable class, the only tokens ever gated (rule R142). -/
def isMutable : Instr → Bool
  | .w1 | .w2 | .w3 | .w4 | .w5 | .w6 | .w7 | .w8 | .halt => true
  | _ => false

/-- `gate(S)` (rule R12). -/
def gateOpen (s : State) : Bool := s.latch.l1 || s.latch.l2

/-- The dispatch of `apply(S, t, b)` once the gating rule has let the token through (rule R140). -/
def dispatchToken (s : State) (b : Nibble) : Instr → State
  | .w1 => { s with x := { s.x with x1 := BitVec.ofNat 4 (min b.toNat 15) } }
  | .w2 => { s with x := { s.x with x2 := BitVec.ofNat 4 (min b.toNat 15) } }
  | .w3 => { s with x := { s.x with x3 := BitVec.ofNat 4 (min b.toNat 15) } }
  | .w4 => { s with x := { s.x with x4 := BitVec.ofNat 4 (min b.toNat 15) } }
  | .w5 => { s with x := { s.x with x5 := BitVec.ofNat 4 (min b.toNat 15) } }
  | .w6 => { s with x := { s.x with x6 := BitVec.ofNat 4 (min b.toNat 15) } }
  | .w7 => { s with x := { s.x with x7 := BitVec.ofNat 4 (min b.toNat 15) } }
  | .w8 => { s with x := { s.x with x8 := BitVec.ofNat 4 (min b.toNat 15) } }
  | .j1 => if 1 ≤ b.toNat then { s with latch := { s.latch with l1 := true } } else s
  | .j2 => if 1 ≤ b.toNat then { s with latch := { s.latch with l2 := true } } else s
  | .e1 => { s with latch := { s.latch with l1 := false } }
  | .e2 => { s with latch := { s.latch with l2 := false } }
  | _ => s

/-- `apply(S, t, b)`: the gating rule first, then the dispatch (rule R140). -/
def applyToken (b : Nibble) (s : State) (t : Instr) : State :=
  if gateOpen s && isMutable t then s else dispatchToken s b t

/-- Steps 1 and 2 of rule R180 on an instruction: the bus from `S`, then the left fold with it. -/
def cycle (i : Instruction) (s : State) : State :=
  i.foldl (applyToken (BitVec.ofNat 4 (busValue s i))) s

/-- Step 3 of rule R180: `(pc + 1) mod LEN`. -/
def nextPosition (s : State) : Nat := (s.pc + 1) % s.program.length

/-- `Notify` of rule R190: one event if the cycle changed the output register, else none. -/
def notification (before after : State) : List Event :=
  if after.x.x8 = before.x.x8 then []
  else [.notify before.n (before.n / before.program.length) after.x.x8]

/-- The token that writes a register (rule R74). -/
def writeToken : Reg → Instr
  | .x1 => .w1 | .x2 => .w2 | .x3 => .w3 | .x4 => .w4
  | .x5 => .w5 | .x6 => .w6 | .x7 => .w7 | .x8 => .w8

/-- The tokens that can change a latch (rule R29). -/
def isLatchToken : Instr → Bool
  | .j1 | .j2 | .e1 | .e2 => true
  | _ => false

end Sys2Proof.Reference

namespace Sys2Proof.Machine

/-- No instruction of the tape holds the token. -/
def State.tapeLacks (s : State) (t : Instr) : Bool :=
  s.program.all fun codes => !(decodeInstruction codes).contains t

/-- A cycle is about to run: the run goes on, the current instruction is not a halt taken, and the cap is not reached (rules R190, R191, R193). -/
abbrev State.runsCycle (s : State) (i : Instruction) : Prop :=
  s.status = .running ∧ s.fetch = some i ∧ haltNow i s = false ∧ s.n < s.cap

/-- The status agrees with the state (rules R191, R193-R195): an ended run stands on an instruction,
it halted exactly if the halt condition holds there, and otherwise it has run `CAP` cycles. -/
def State.statusOk (s : State) : Bool :=
  match s.status, s.fetch with
  | .running, _ => true
  | .ended .halted, some i => haltNow i s
  | .ended .cap, some i => s.n == s.cap && !haltNow i s
  | .ended _, none => false

/-- The events agree with the state (rules R196, R197, R199, R204), read from the oldest: the
notifications have rising cycle indices, each at least `lo` and below `n`, each with its pass number;
`Final` is there exactly if the run has ended, comes last, and carries `x[8]`, `n` and the reason. -/
def State.eventsOk (s : State) (lo : Nat) : List Event → Bool
  | [] => s.status == .running
  | .notify c p _ :: rest =>
    decide (lo ≤ c) && decide (c < s.n) && p == c / s.program.length && s.eventsOk (c + 1) rest
  | .final v m why :: rest =>
    rest.isEmpty && s.status == .ended why && v == s.output && m == s.n

/-- What holds between the cycles of a run, in every state a run reaches (rules R25, R37, R39, R184,
R191-R199): the position is `n mod LEN`, `n` is at most `CAP`, nothing is left on the bus, and status
and events agree with the state. -/
abbrev State.Inv (s : State) : Prop :=
  s.pc = s.n % s.program.length ∧ s.n ≤ s.cap ∧ s.bus = 0 ∧ s.phase = .evaluate ∧
    s.statusOk = true ∧ s.eventsOk 0 s.events = true

/-- How many of the events are notifications (rule R204). -/
def notifyCount (es : List Event) : Nat :=
  es.countP fun e => match e with
    | .notify _ _ _ => true
    | .final _ _ _ => false

/-- `k` steps of the machine (Host/Core.lean's `run`). -/
abbrev run (k : Nat) (s : State) : Outcome := Host.Core.run Sys2Proof.core k s

end Sys2Proof.Machine
end

