-- ==== Sys2Proof/Certificates/Slice0/Obligations.lean ====
section
/-! DEFINITION. Sys2Proof/Certificates/Slice0/Obligations.lean: the statements for the provers. None is
about a program; each docstring names the rules it rests on. -/

open Sys2Proof Sys2Proof.Machine

/-- Codes written out from the table of rule R80 (the spec's own code, D2) decode to their tokens. -/
def Obligations.SampleWordsDecode : Prop :=
  decodeCode 0b000000 = .r1 ∧ decodeCode 0b000111 = .r8 ∧ decodeCode 0b001010 = .w3 ∧
  decodeCode 0b010100 = .g5 ∧ decodeCode 0b011001 = .sub ∧ decodeCode 0b011101 = .overflow ∧
  decodeCode 0b100001 = .j2 ∧ decodeCode 0b100010 = .e1 ∧ decodeCode 0b100100 = .halt ∧
  decodeCode 0b010101 = .unknown ∧ decodeCode 0b111111 = .unknown

/-- Rule R90 on the 39 rows: every code selects exactly one row, and that row's token is what the
decoder reads (the spec's own code, D2). -/
def Obligations.OpcodeRowsPartitionTheCodes : Prop :=
  opcodeRows.length = 39 ∧
  ∀ c : Code, (opcodeRows.countP fun r => rowSelects r c) = 1 ∧
    ∀ r ∈ opcodeRows, rowSelects r c = true → decodeCode c = r.token

/-- Rule R81: encode after decode keeps every assigned code and maps every unassigned one to 63. -/
def Obligations.EncodeAfterDecodeIsCanonical : Prop :=
  ∀ c : Code, encode (decodeCode c) = if decodeCode c = .unknown then 63 else c

/-- Rules R81, R83: decoding an encoded instruction gives it back, every token in place, and so does the
counted form, which leaves the codes after it. -/
def Obligations.CodedInstructionsRoundTrip : Prop :=
  ∀ (i : Instruction) (rest : List Code),
    decodeInstruction (encodeInstruction i) = i ∧
    decodeCounted i.length (encodeInstruction i ++ rest) = some (i, rest)

/-- Rules R76, R79, R87: the canonical spelling of a non-empty instruction parses back to it, and text
after a space is a comment. (An instruction that prints as nothing has no such comment form: its line
would begin with white space, which rule R85 leaves to the loader.) -/
def Obligations.ProgramLinesRoundTrip : Prop :=
  ∀ i : Instruction, i ≠ [] → parseLine (printLine i) = some i ∧
    ∀ comment : List Char, printLine i ≠ [] → parseLine (printLine i ++ ' ' :: comment) = some i

/-- Rules R101-R108 in the two halves of a cycle: `R<i>` joins `x[i]` to the bus and changes nothing
else; applied, it changes nothing. -/
def Obligations.RegisterReadsOfferTheirRegister : Prop :=
  ∀ s : State,
    (s.phase = .evaluate →
      exec .r1 s = .next { s with bus := BitVec.ofNat 4 (max s.bus.toNat s.x.x1.toNat) } ∧
      exec .r2 s = .next { s with bus := BitVec.ofNat 4 (max s.bus.toNat s.x.x2.toNat) } ∧
      exec .r3 s = .next { s with bus := BitVec.ofNat 4 (max s.bus.toNat s.x.x3.toNat) } ∧
      exec .r4 s = .next { s with bus := BitVec.ofNat 4 (max s.bus.toNat s.x.x4.toNat) } ∧
      exec .r5 s = .next { s with bus := BitVec.ofNat 4 (max s.bus.toNat s.x.x5.toNat) } ∧
      exec .r6 s = .next { s with bus := BitVec.ofNat 4 (max s.bus.toNat s.x.x6.toNat) } ∧
      exec .r7 s = .next { s with bus := BitVec.ofNat 4 (max s.bus.toNat s.x.x7.toNat) } ∧
      exec .r8 s = .next { s with bus := BitVec.ofNat 4 (max s.bus.toNat s.x.x8.toNat) }) ∧
    (s.phase = .apply → ∀ i ∈ [Instr.r1, .r2, .r3, .r4, .r5, .r6, .r7, .r8], exec i s = .next s)

/-- Rules R109-R113 in the two halves of a cycle: `G<i>` joins `g[i]` to the bus and changes nothing
else; applied, it changes nothing. -/
def Obligations.InputReadsOfferTheirInput : Prop :=
  ∀ s : State,
    (s.phase = .evaluate →
      exec .g1 s = .next { s with bus := BitVec.ofNat 4 (max s.bus.toNat s.g.g1.toNat) } ∧
      exec .g2 s = .next { s with bus := BitVec.ofNat 4 (max s.bus.toNat s.g.g2.toNat) } ∧
      exec .g3 s = .next { s with bus := BitVec.ofNat 4 (max s.bus.toNat s.g.g3.toNat) } ∧
      exec .g4 s = .next { s with bus := BitVec.ofNat 4 (max s.bus.toNat s.g.g4.toNat) } ∧
      exec .g5 s = .next { s with bus := BitVec.ofNat 4 (max s.bus.toNat s.g.g5.toNat) }) ∧
    (s.phase = .apply → ∀ i ∈ [Instr.g1, .g2, .g3, .g4, .g5], exec i s = .next s)

/-- Rules R120-R126 in the two halves of a cycle: each ALU token joins its value, computed from `x[1]`
and `x[2]`, to the bus and changes nothing else; applied, it changes nothing. -/
def Obligations.AluTokensOfferTheirResult : Prop :=
  ∀ s : State,
    (s.phase = .evaluate →
      exec .add s = .next { s with
        bus := BitVec.ofNat 4 (max s.bus.toNat (min (s.x.x1.toNat + s.x.x2.toNat) 15)) } ∧
      exec .sub s = .next { s with
        bus := BitVec.ofNat 4 (max s.bus.toNat
          (if s.x.x2.toNat ≤ s.x.x1.toNat then s.x.x1.toNat - s.x.x2.toNat else 0)) } ∧
      exec .lt s = .next { s with
        bus := BitVec.ofNat 4 (max s.bus.toNat (if s.x.x1.toNat < s.x.x2.toNat then 1 else 0)) } ∧
      exec .gt s = .next { s with
        bus := BitVec.ofNat 4 (max s.bus.toNat (if s.x.x2.toNat < s.x.x1.toNat then 1 else 0)) } ∧
      exec .eq s = .next { s with
        bus := BitVec.ofNat 4 (max s.bus.toNat (if s.x.x1.toNat = s.x.x2.toNat then 1 else 0)) } ∧
      exec .overflow s = .next { s with
        bus := BitVec.ofNat 4 (max s.bus.toNat
          (if 15 < s.x.x1.toNat + s.x.x2.toNat then 1 else 0)) }) ∧
    (s.phase = .apply → ∀ i ∈ [Instr.add, .sub, .lt, .gt, .eq, .overflow], exec i s = .next s)

/-- Rule R114: a write, latch or halt token and UNKNOWN are evaluated to 0, so they leave the bus, and
everything else, as it was. -/
def Obligations.OtherTokensOfferZero : Prop :=
  ∀ s : State, s.phase = .evaluate →
    ∀ i ∈ [Instr.w1, .w2, .w3, .w4, .w5, .w6, .w7, .w8, .j1, .j2, .e1, .e2, .halt, .unknown],
      exec i s = .next s

/-- Rules R144-R152: applied with both latches clear, `W<i>` replaces `x[i]` by the bus value and changes
nothing else; with a latch set it changes nothing. -/
def Obligations.RegisterWritesStoreTheBus : Prop :=
  ∀ s : State, s.phase = .apply →
    (s.latch.l1 = false → s.latch.l2 = false →
      exec .w1 s = .next { s with x := { s.x with x1 := s.bus } } ∧
      exec .w2 s = .next { s with x := { s.x with x2 := s.bus } } ∧
      exec .w3 s = .next { s with x := { s.x with x3 := s.bus } } ∧
      exec .w4 s = .next { s with x := { s.x with x4 := s.bus } } ∧
      exec .w5 s = .next { s with x := { s.x with x5 := s.bus } } ∧
      exec .w6 s = .next { s with x := { s.x with x6 := s.bus } } ∧
      exec .w7 s = .next { s with x := { s.x with x7 := s.bus } } ∧
      exec .w8 s = .next { s with x := { s.x with x8 := s.bus } }) ∧
    (s.latch.l1 = true ∨ s.latch.l2 = true →
      ∀ i ∈ [Instr.w1, .w2, .w3, .w4, .w5, .w6, .w7, .w8], exec i s = .next s)

/-- Rules R161, R162: applied, `J<k>` sets `L[k]` if the bus is at least 1, else it changes nothing; it is
never gated; registers and the other latch stay. -/
def Obligations.JumpTokensSetTheirLatch : Prop :=
  ∀ s : State, s.phase = .apply →
    (1 ≤ s.bus.toNat →
      exec .j1 s = .next { s with latch := { s.latch with l1 := true } } ∧
      exec .j2 s = .next { s with latch := { s.latch with l2 := true } }) ∧
    (s.bus = 0 → exec .j1 s = .next s ∧ exec .j2 s = .next s)

/-- Rules R163, R164: applied, `E<k>` clears `L[k]` whatever it, the bus and the other latch hold, and
changes nothing else. -/
def Obligations.EndTokensClearTheirLatch : Prop :=
  ∀ s : State, s.phase = .apply →
    exec .e1 s = .next { s with latch := { s.latch with l1 := false } } ∧
    exec .e2 s = .next { s with latch := { s.latch with l2 := false } }

/-- Rules R170, R172: applied, `HALT` (gated or not) and UNKNOWN change nothing. -/
def Obligations.HaltAndUnknownApplyNothing : Prop :=
  ∀ s : State, s.phase = .apply → exec .halt s = .next s ∧ exec .unknown s = .next s

/-- The table of rule R141 (the spec's decision D11): the gate is that of the latches as the tokens to the
left left them. -/
def Obligations.ThreadedGateOrder : Prop :=
  ∀ s : State, s.phase = .apply →
    (1 ≤ s.bus.toNat → s.latch = ⟨false, false⟩ →
      runTokens [.j1, .w3] s = .next { s with latch := ⟨true, false⟩ } ∧
      runTokens [.w3, .j1] s =
        .next { s with x := { s.x with x3 := s.bus }, latch := ⟨true, false⟩ } ∧
      runTokens [.j1, .w3, .e1, .w4] s = .next { s with x := { s.x with x4 := s.bus } }) ∧
    (1 ≤ s.bus.toNat → s.latch = ⟨true, false⟩ →
      runTokens [.e1, .w3] s =
        .next { s with x := { s.x with x3 := s.bus }, latch := ⟨false, false⟩ } ∧
      runTokens [.w3, .e1] s = .next { s with latch := ⟨false, false⟩ }) ∧
    (1 ≤ s.bus.toNat → s.latch = ⟨true, true⟩ →
      runTokens [.e1, .w3] s = .next { s with latch := ⟨false, true⟩ }) ∧
    (s.bus = 0 → s.latch = ⟨false, false⟩ →
      runTokens [.j1, .w3] s = .next { s with x := { s.x with x3 := 0 } })

/-- Rules R130, R133, R134: the values of an instruction's tokens leave on the bus their numeric maximum, 0 if none is
above it; instructions with the same tokens, in any order and number, give the same bus value. That an instruction with no token
has bus 0 is the spec's decision D12 (log 12). -/
def Obligations.BusIsTheNumericMaximum : Prop :=
  ∀ (s : State) (i : Instruction),
    (∃ b : Nibble, runTokens i s.openCycle = .next { s.openCycle with bus := b } ∧
      (∀ t ∈ i, (Reference.evalToken s t).toNat ≤ b.toNat) ∧
      (b = 0 ∨ ∃ t ∈ i, Reference.evalToken s t = b)) ∧
    ∀ j : Instruction, (∀ t, t ∈ i ↔ t ∈ j) →
      runTokens i s.openCycle = runTokens j s.openCycle

/-- Rule R32: a token's value is a function of the register file and the input vector; states that agree
on these get the same bus value from a token, whatever their latches (and all else) hold. -/
def Obligations.EvaluatorReadsNoLatch : Prop :=
  ∀ (i : Instr) (s s' : State), s.phase = .evaluate → s'.phase = .evaluate →
    s.x = s'.x → s.g = s'.g → s.bus = s'.bus →
    ∃ t t', exec i s = .next t ∧ exec i s' = .next t' ∧ t.bus = t'.bus ∧
      t.latch = s.latch ∧ t'.latch = s'.latch

/-- Rule R29: `J<k>` with a bus of at least 1 sets `L[k]`, `E<k>` clears it, no other token writes it, and
neither does the rest of a step (the tape's wrapping, the Run Loop). -/
def Obligations.LatchesChangeOnlyByTheirTokens : Prop :=
  (∀ (i : Instr) (s t : State), exec i s = .next t →
    t.latch.l1 = (if s.phase = .apply ∧ i = .j1 ∧ 1 ≤ s.bus.toNat then true
      else if s.phase = .apply ∧ i = .e1 then false else s.latch.l1) ∧
    t.latch.l2 = (if s.phase = .apply ∧ i = .j2 ∧ 1 ≤ s.bus.toNat then true
      else if s.phase = .apply ∧ i = .e2 then false else s.latch.l2)) ∧
  ∀ (s t : State) (i : Instruction), s.fetch = some i → step s = .next t →
    (Instr.j1 ∉ i → Instr.e1 ∉ i → t.latch.l1 = s.latch.l1) ∧
    (Instr.j2 ∉ i → Instr.e2 ∉ i → t.latch.l2 = s.latch.l2)

/-- The laws of rule R127 on the values the ALU tokens give from an empty bus: one and only one of `<`, `>`,
`=` is 1; `overflow` gives 1 only with `+` at 15; `-` is 0 exactly if `>` is; without overflow `+` is
the exact sum. -/
def Obligations.AluLawsHold : Prop :=
  ∀ s a d l g e o : State, s.phase = .evaluate → s.bus = 0 →
    exec .add s = .next a → exec .sub s = .next d → exec .lt s = .next l →
    exec .gt s = .next g → exec .eq s = .next e → exec .overflow s = .next o →
    l.bus.toNat + g.bus.toNat + e.bus.toNat = 1 ∧
    (o.bus = 1 → a.bus.toNat = 15) ∧
    (d.bus = 0 ↔ g.bus = 0) ∧
    (o.bus = 0 → a.bus.toNat = s.x.x1.toNat + s.x.x2.toNat)

/-- Rules R171, R172: taking every UNKNOWN and every `HALT` out of an instruction changes nothing a clock
cycle does. -/
def Obligations.UnknownAndHaltTokensAreAbsorbed : Prop :=
  ∀ (i : Instruction) (s : State),
    clockCycle i s = clockCycle (i.filter fun t => t != .unknown && t != .halt) s

/-- Rules R61, R71, R245: in an instruction with no `J` and no `E` token the order of the tokens does not
matter to the cycle. -/
def Obligations.OrderIsFreeWithoutLatchTokens : Prop :=
  ∀ (i j : Instruction) (s : State), i.Perm j → (∀ t ∈ i, Reference.isLatchToken t = false) →
    clockCycle i s = clockCycle j s

/-- Rule R180: a cycle computes the bus from the start-of-cycle state, folds the Write Applier left to
right with it, and advances the position modulo the tape's length; the tape is unchanged. The gate that
the fold meets is that of the threaded state, the spec's decision D11 (conflict C1; log 7). -/
def Obligations.CycleIsTheSpecsStep : Prop :=
  ∀ (s : State) (i : Instruction), s.runsCycle i →
    ∃ t, step s = .next t ∧
      t.x = (Reference.cycle i s).x ∧ t.latch = (Reference.cycle i s).latch ∧
      t.pc = Reference.nextPosition s ∧ t.program = s.program ∧ t.g = s.g ∧ t.cap = s.cap

/-- Rules R23, R131, R242: a register that a cycle changes is named by a `W` token of the instruction and
holds, afterwards, the one bus value computed from the start-of-cycle state. -/
def Obligations.RegistersChangeOnlyToTheCyclesBus : Prop :=
  ∀ (s t : State) (i : Instruction) (r : Reg), s.runsCycle i → step s = .next t →
    t.x.get r ≠ s.x.get r →
    Reference.writeToken r ∈ i ∧ (t.x.get r).toNat = Reference.busValue s i

/-- Rule R183: a cycle takes the position to `(pc + 1) mod LEN` and leaves the tape as it is, whatever the
instruction, the bus and the latches. -/
def Obligations.PositionAdvancesEveryCycle : Prop :=
  ∀ (s : State) (i : Instruction), s.runsCycle i →
    ∃ t, step s = .next t ∧ t.pc = (s.pc + 1) % s.program.length ∧ t.program = s.program

/-- Rules R190, R196 (the numbering is the spec's decision D8): a cycle adds 1 to `n`, leaves the run going
on, and tells the observer of a changed output register, with the cycle's index and pass number. -/
def Obligations.CyclesCountAndNotify : Prop :=
  ∀ (s : State) (i : Instruction), s.runsCycle i →
    ∃ t, step s = .next t ∧ t.n = s.n + 1 ∧ t.status = .running ∧
      t.events = s.events ++
        (if t.x.x8 = s.x.x8 then [] else [.notify s.n (s.n / s.program.length) t.x.x8])

/-- Rules R170, R191, R194, R195, R199: standing on exactly `[HALT]` with both latches clear, the run ends
with the reason `halted`, whatever the cap; nothing is executed and nothing else changes. -/
def Obligations.HaltEndsTheRun : Prop :=
  ∀ s : State, s.status = .running → s.fetch = some [.halt] →
    s.latch.l1 = false → s.latch.l2 = false →
    step s = .next { s with status := .ended .halted, events := s.events ++ [.final s.x.x8 s.n .halted] }

/-- Rules R191, R194: a run continues while the current instruction is not exactly `[HALT]` or a latch is set: it
halts exactly if it is and none is, and otherwise runs the cycle as long as the cap allows. That it halts where the cap is reached as well, and what
the cap counts, are the spec's decisions D10 and D9 (log 8). -/
def Obligations.HaltsExactlyOnTheHaltCondition : Prop :=
  ∀ (s : State) (i : Instruction), s.status = .running → s.fetch = some i →
    ∃ t, step s = .next t ∧
      (t.status = .ended .halted ↔ i = [.halt] ∧ s.latch.l1 = false ∧ s.latch.l2 = false) ∧
      (¬(i = [.halt] ∧ s.latch.l1 = false ∧ s.latch.l2 = false) → s.n < s.cap →
        t.status = .running ∧ t.n = s.n + 1)

/-- Rules R193, R194, R199 (the spec's decisions D9, D10): with the cap reached and the halt condition not
holding, the run ends with the reason `cap` and nothing else changes. -/
def Obligations.CapEndsTheRun : Prop :=
  ∀ (s : State) (i : Instruction), s.status = .running → s.fetch = some i →
    ¬(i = [.halt] ∧ s.latch.l1 = false ∧ s.latch.l2 = false) → s.cap ≤ s.n →
    step s = .next { s with status := .ended .cap, events := s.events ++ [.final s.x.x8 s.n .cap] }

/-- Rule R202 (the spec's decision D17; log 4): after the end the state is frozen. -/
def Obligations.EndedRunIsFrozen : Prop :=
  ∀ (s : State) (why : StopReason) (k : Nat), s.status = .ended why → run k s = .next s

/-- Rules R185, R210, R224: a cycle is defined for every state and every instruction, and never faults or
refuses; a step answers a next state for every state. That it does so after the end of a run, where R202
says no step is taken, and before construction is the model's (logs 4, 2). -/
def Obligations.StepAndCycleAreTotal : Prop :=
  (∀ (i : Instruction) (s : State), ∃ t, clockCycle i s = .next t) ∧
  ∀ s : State, ∃ t, step s = .next t

/-- Rules R210, R215, R224: no token and no step faults or refuses, in any state; only construction refuses.
That a machine not yet constructed waits, its state unchanged, is the model's choice (log 2). -/
def Obligations.TokensAndStepsNeverStop : Prop :=
  (∀ (i : Instr) (s : State), (∀ r, exec i s ≠ .fault r) ∧ ∀ r, exec i s ≠ .refused r) ∧
  ∀ s : State, (∀ r, step s ≠ .fault r) ∧ (∀ r, step s ≠ .refused r) ∧
    (s.tape = none → ∀ k : Nat, run k s = .next s)

/-- Rules R25, R26: in a constructed machine the position is below `LEN`, and it stays so under every token and
every step. -/
def Obligations.PositionStaysOnTheTape : Prop :=
  ∀ s : State, s.tape.isSome = true →
    s.pc < s.program.length ∧
    (∀ (i : Instr) (t : State), exec i s = .next t → t.tape = s.tape) ∧
    ∀ (k : Nat) (t : State), run k s = .next t → t.tape.isSome = true ∧ t.pc < s.program.length

/-- Where codes at the position decode to an instruction and a cycle runs, the step is its tokens'
meanings, in both halves of a cycle, with what the model puts around them: opening the cycle, turning
to its second half, advancing the position, notifying and counting. For one token these are two
`exec`s. -/
def Obligations.StepRunsTheDecodedInstruction : Prop :=
  (∀ (s : State) (codes : CodedInstruction), s.program[s.pc]? = some codes →
    s.runsCycle (decodeInstruction codes) →
    step s = andThen (runTokens (decodeInstruction codes) s.openCycle) fun e =>
      andThen (runTokens (decodeInstruction codes) e.enterApply) fun a =>
        .next (finishCycle s a.advance)) ∧
  ∀ (s : State) (c : Code), s.program[s.pc]? = some [c] → s.runsCycle [decodeCode c] →
    step s = andThen (exec (decodeCode c) s.openCycle) fun e =>
      andThen (exec (decodeCode c) e.enterApply) fun a => .next (finishCycle s a.advance)

/-- The model's `withFetchWord` (log 2): the next step of the state fetches the one-token instruction of the
placed code, the run going on with a cycle left, and registers, inputs and latches untouched. -/
def Obligations.PlacedWordIsFetchedNext : Prop :=
  ∀ (s : State) (w : Nat) (i : Instr), decodeTableWord 8 w = some i →
    (s.withFetchWord 8 w).fetch = some [i] ∧ (s.withFetchWord 8 w).status = .running ∧
    (s.withFetchWord 8 w).n < (s.withFetchWord 8 w).cap ∧ (s.withFetchWord 8 w).x = s.x ∧
    (s.withFetchWord 8 w).g = s.g ∧ (s.withFetchWord 8 w).latch = s.latch

/-- Rule R39 on the model's own pair `bus`, `phase` (log 3): no cycle depends on what they held before it, and
a cycle leaves nothing in them. -/
def Obligations.BusDoesNotOutliveItsCycle : Prop :=
  ∀ (s : State) (i : Instruction) (b : Nibble) (p : Phase), s.runsCycle i →
    step { s with bus := b, phase := p } = step s ∧
    ∃ t, step s = .next t ∧ t.bus = 0 ∧ t.phase = .evaluate

/-- Rules R34, R40, R65: no token and no step writes the input vector, the tape or the cap: they are the
same in every state of a run. -/
def Obligations.InputsTapeAndCapAreConstant : Prop :=
  (∀ (i : Instr) (s t : State), exec i s = .next t →
    t.g = s.g ∧ t.program = s.program ∧ t.cap = s.cap) ∧
  ∀ (k : Nat) (s t : State), run k s = .next t →
    t.g = s.g ∧ t.program = s.program ∧ t.cap = s.cap

/-- Rule R184 (with the reset position 0, the spec's decision D7, and the model's one cycle per step, log 14): in
a constructed machine's run from position 0 and count 0, the state before cycle `k` has run `k` cycles and stands on instruction `k mod LEN`, jumps or not. -/
def Obligations.CycleKRunsInstructionKModLen : Prop :=
  ∀ (k : Nat) (s t : State), s.tape.isSome = true → s.pc = 0 → s.n = 0 → run k s = .next t →
    t.status = .running → t.n = k ∧ t.pc = k % s.program.length

/-- Rules R142, R143, R247 (on D11): a step from a state with `L[k]` set, on an instruction with no `E<k>`,
changes no register and leaves `L[k]` set. -/
def Obligations.OpenWindowFreezesRegisters : Prop :=
  ∀ (s t : State) (i : Instruction), s.fetch = some i → step s = .next t →
    (s.latch.l1 = true → Instr.e1 ∉ i → t.x = s.x ∧ t.latch.l1 = true) ∧
    (s.latch.l2 = true → Instr.e2 ∉ i → t.x = s.x ∧ t.latch.l2 = true)

/-- Rule R166: a window whose latch has no matching `E` token on the tape never closes: the registers stay
frozen, the run never halts, and it ends at the cap. The number of steps rests on the cap's counting executed
cycles (the spec's decision D9, log 8) and on the step of its own that ends a run (log 14). -/
def Obligations.UnclosedWindowRunsToTheCap : Prop :=
  ∀ s : State, s.status = .running → s.tape.isSome = true →
    ((s.latch.l1 = true ∧ s.tapeLacks .e1 = true) ∨ (s.latch.l2 = true ∧ s.tapeLacks .e2 = true)) →
    (∀ (k : Nat) (t : State), run k s = .next t → t.x = s.x ∧ t.status ≠ .ended .halted) ∧
    ∃ t, run (s.cap - s.n + 1) s = .next t ∧ t.status = .ended .cap ∧ t.x = s.x

/-- Rules R193, R224: from any state of a constructed machine, the run has ended after the cycles left under
the cap and one more step, with no fault or refusal on the way. That the cap counts executed cycles is the
spec's decision D9 (log 8); the one more step is the model's (log 14). -/
def Obligations.EveryRunEndsWithinItsCap : Prop :=
  ∀ s : State, s.tape.isSome = true →
    ∃ t, run (s.cap - s.n + 1) s = .next t ∧ t.status ≠ .running ∧ t.n ≤ max s.n s.cap

/-- `State.Inv` (rules R25, R37, R39, R184, R191-R199): a step from a state that meets it gives one that
meets it. -/
def Obligations.EveryStepKeepsTheInvariant : Prop :=
  ∀ s t : State, s.Inv → step s = .next t → t.Inv

/-- `State.reset` meets `State.Inv`. -/
def Obligations.ResetMeetsTheInvariant : Prop :=
  State.reset.Inv

/-- Rule R41's values, each the spec's own decision (D5-D8; log 1), and the model's choice for what the host
supplies (log 2). -/
def Obligations.ResetValues : Prop :=
  (∀ r, State.reset.x.get r = 0) ∧ (∀ k, State.reset.latch.get k = false) ∧
  State.reset.pc = 0 ∧ State.reset.n = 0 ∧ State.reset.status = .running ∧
  State.reset.events = [] ∧ State.reset.tape = none ∧ (∀ i, State.reset.g.get i = 0)

/-- Rules R200, R215, R230 (on D4-D8, D13): a well-formed launch gives a machine in the reset state with
what the host supplied, and it meets `State.Inv`. -/
def Obligations.LaunchGivesTheResetState : Prop :=
  ∀ (l : Launch) (initX : RegFile), l.wellFormed = true →
    ∃ t, construct l initX = .next t ∧ t.Inv ∧ t.x = initX ∧ t.latch = ⟨false, false⟩ ∧
      t.pc = 0 ∧ t.n = 0 ∧ t.status = .running ∧ t.events = [] ∧ t.cap = l.cap ∧
      t.program.map decodeInstruction = l.program ∧
      l.inputs = [(t.g.g1.toNat : Int), t.g.g2.toNat, t.g.g3.toNat, t.g.g4.toNat, t.g.g5.toNat]

/-- Rule R215 (on D4, D13): a launch with no instruction, with an input vector not of length 5, or with an
input outside 0..15 is refused, and no other launch is. -/
def Obligations.IllFormedLaunchIsRefused : Prop :=
  ∀ (l : Launch) (initX : RegFile), (∃ r, construct l initX = .refused r) ↔
    l.program = [] ∨ l.inputs.length ≠ 5 ∨ ∃ v ∈ l.inputs, v < 0 ∨ 15 < v

/-- Rule R204, in every state that meets `State.Inv`: at most `n` notifications; `n` at most `CAP`; a `Final`
carries `n`, and `CAP` itself where its reason is `cap`; it is there exactly if the run has ended. -/
def Obligations.RunTotalsHold : Prop :=
  ∀ s : State, s.Inv → notifyCount s.events ≤ s.n ∧ s.n ≤ s.cap ∧
    (∀ v m why, Event.final v m why ∈ s.events →
      m = s.n ∧ v = s.x.x8 ∧ (why = .cap → m = s.cap) ∧ s.status = .ended why) ∧
    (s.status ≠ .running → ∃ v m why, Event.final v m why ∈ s.events)
end

