-- ==== Sys2Proof/Laws/State.lean ====
section
/-! SUPPORT. Sys2Proof/Laws/State.lean: one lemma per field per named update of the state, so that no
later proof unfolds a record update. -/

namespace Sys2Proof.Machine

section
variable (s : State) (i : Reg) (v : Nibble)

@[simp] theorem State.writeReg_x : (s.writeReg i v).x = s.x.set i v := rfl
@[simp] theorem State.writeReg_g : (s.writeReg i v).g = s.g := rfl
@[simp] theorem State.writeReg_latch : (s.writeReg i v).latch = s.latch := rfl
@[simp] theorem State.writeReg_pc : (s.writeReg i v).pc = s.pc := rfl
@[simp] theorem State.writeReg_program : (s.writeReg i v).program = s.program := rfl
@[simp] theorem State.writeReg_n : (s.writeReg i v).n = s.n := rfl
@[simp] theorem State.writeReg_tape : (s.writeReg i v).tape = s.tape := rfl
@[simp] theorem State.writeReg_cap : (s.writeReg i v).cap = s.cap := rfl
@[simp] theorem State.writeReg_status : (s.writeReg i v).status = s.status := rfl
@[simp] theorem State.writeReg_events : (s.writeReg i v).events = s.events := rfl
@[simp] theorem State.writeReg_bus : (s.writeReg i v).bus = s.bus := rfl
@[simp] theorem State.writeReg_phase : (s.writeReg i v).phase = s.phase := rfl

end

section
variable (s : State) (k : Latch) (b : Bool)

@[simp] theorem State.setLatch_x : (s.setLatch k b).x = s.x := rfl
@[simp] theorem State.setLatch_g : (s.setLatch k b).g = s.g := rfl
@[simp] theorem State.setLatch_latch : (s.setLatch k b).latch = s.latch.set k b := rfl
@[simp] theorem State.setLatch_pc : (s.setLatch k b).pc = s.pc := rfl
@[simp] theorem State.setLatch_program : (s.setLatch k b).program = s.program := rfl
@[simp] theorem State.setLatch_n : (s.setLatch k b).n = s.n := rfl
@[simp] theorem State.setLatch_tape : (s.setLatch k b).tape = s.tape := rfl
@[simp] theorem State.setLatch_cap : (s.setLatch k b).cap = s.cap := rfl
@[simp] theorem State.setLatch_status : (s.setLatch k b).status = s.status := rfl
@[simp] theorem State.setLatch_events : (s.setLatch k b).events = s.events := rfl
@[simp] theorem State.setLatch_bus : (s.setLatch k b).bus = s.bus := rfl
@[simp] theorem State.setLatch_phase : (s.setLatch k b).phase = s.phase := rfl

end

section
variable (s : State) (v : Nibble)

@[simp] theorem State.drive_x : (s.drive v).x = s.x := rfl
@[simp] theorem State.drive_g : (s.drive v).g = s.g := rfl
@[simp] theorem State.drive_latch : (s.drive v).latch = s.latch := rfl
@[simp] theorem State.drive_pc : (s.drive v).pc = s.pc := rfl
@[simp] theorem State.drive_program : (s.drive v).program = s.program := rfl
@[simp] theorem State.drive_n : (s.drive v).n = s.n := rfl
@[simp] theorem State.drive_tape : (s.drive v).tape = s.tape := rfl
@[simp] theorem State.drive_cap : (s.drive v).cap = s.cap := rfl
@[simp] theorem State.drive_status : (s.drive v).status = s.status := rfl
@[simp] theorem State.drive_events : (s.drive v).events = s.events := rfl
@[simp] theorem State.drive_bus : (s.drive v).bus = busMax s.bus v := rfl
@[simp] theorem State.drive_phase : (s.drive v).phase = s.phase := rfl

end

section
variable (s : State)

@[simp] theorem State.openCycle_x : (s.openCycle).x = s.x := rfl
@[simp] theorem State.openCycle_g : (s.openCycle).g = s.g := rfl
@[simp] theorem State.openCycle_latch : (s.openCycle).latch = s.latch := rfl
@[simp] theorem State.openCycle_pc : (s.openCycle).pc = s.pc := rfl
@[simp] theorem State.openCycle_program : (s.openCycle).program = s.program := rfl
@[simp] theorem State.openCycle_n : (s.openCycle).n = s.n := rfl
@[simp] theorem State.openCycle_tape : (s.openCycle).tape = s.tape := rfl
@[simp] theorem State.openCycle_cap : (s.openCycle).cap = s.cap := rfl
@[simp] theorem State.openCycle_status : (s.openCycle).status = s.status := rfl
@[simp] theorem State.openCycle_events : (s.openCycle).events = s.events := rfl
@[simp] theorem State.openCycle_bus : (s.openCycle).bus = 0 := rfl
@[simp] theorem State.openCycle_phase : (s.openCycle).phase = .evaluate := rfl

end

section
variable (s : State)

@[simp] theorem State.enterApply_x : (s.enterApply).x = s.x := rfl
@[simp] theorem State.enterApply_g : (s.enterApply).g = s.g := rfl
@[simp] theorem State.enterApply_latch : (s.enterApply).latch = s.latch := rfl
@[simp] theorem State.enterApply_pc : (s.enterApply).pc = s.pc := rfl
@[simp] theorem State.enterApply_program : (s.enterApply).program = s.program := rfl
@[simp] theorem State.enterApply_n : (s.enterApply).n = s.n := rfl
@[simp] theorem State.enterApply_tape : (s.enterApply).tape = s.tape := rfl
@[simp] theorem State.enterApply_cap : (s.enterApply).cap = s.cap := rfl
@[simp] theorem State.enterApply_status : (s.enterApply).status = s.status := rfl
@[simp] theorem State.enterApply_events : (s.enterApply).events = s.events := rfl
@[simp] theorem State.enterApply_bus : (s.enterApply).bus = s.bus := rfl
@[simp] theorem State.enterApply_phase : (s.enterApply).phase = .apply := rfl

end

section
variable (s : State)

@[simp] theorem State.advance_x : (s.advance).x = s.x := rfl
@[simp] theorem State.advance_g : (s.advance).g = s.g := rfl
@[simp] theorem State.advance_latch : (s.advance).latch = s.latch := rfl
@[simp] theorem State.advance_n : (s.advance).n = s.n := rfl
@[simp] theorem State.advance_tape : (s.advance).tape = s.tape.map Tape.advance := rfl
@[simp] theorem State.advance_cap : (s.advance).cap = s.cap := rfl
@[simp] theorem State.advance_status : (s.advance).status = s.status := rfl
@[simp] theorem State.advance_events : (s.advance).events = s.events := rfl
@[simp] theorem State.advance_bus : (s.advance).bus = 0 := rfl
@[simp] theorem State.advance_phase : (s.advance).phase = .evaluate := rfl

end

section
variable (s : State) (e : Event)

@[simp] theorem State.emit_x : (s.emit e).x = s.x := rfl
@[simp] theorem State.emit_g : (s.emit e).g = s.g := rfl
@[simp] theorem State.emit_latch : (s.emit e).latch = s.latch := rfl
@[simp] theorem State.emit_pc : (s.emit e).pc = s.pc := rfl
@[simp] theorem State.emit_program : (s.emit e).program = s.program := rfl
@[simp] theorem State.emit_n : (s.emit e).n = s.n := rfl
@[simp] theorem State.emit_tape : (s.emit e).tape = s.tape := rfl
@[simp] theorem State.emit_cap : (s.emit e).cap = s.cap := rfl
@[simp] theorem State.emit_status : (s.emit e).status = s.status := rfl
@[simp] theorem State.emit_events : (s.emit e).events = s.events ++ [e] := rfl
@[simp] theorem State.emit_bus : (s.emit e).bus = s.bus := rfl
@[simp] theorem State.emit_phase : (s.emit e).phase = s.phase := rfl

end

section
variable (s : State)

@[simp] theorem State.countCycle_x : (s.countCycle).x = s.x := rfl
@[simp] theorem State.countCycle_g : (s.countCycle).g = s.g := rfl
@[simp] theorem State.countCycle_latch : (s.countCycle).latch = s.latch := rfl
@[simp] theorem State.countCycle_pc : (s.countCycle).pc = s.pc := rfl
@[simp] theorem State.countCycle_program : (s.countCycle).program = s.program := rfl
@[simp] theorem State.countCycle_n : (s.countCycle).n = s.n + 1 := rfl
@[simp] theorem State.countCycle_tape : (s.countCycle).tape = s.tape := rfl
@[simp] theorem State.countCycle_cap : (s.countCycle).cap = s.cap := rfl
@[simp] theorem State.countCycle_status : (s.countCycle).status = s.status := rfl
@[simp] theorem State.countCycle_events : (s.countCycle).events = s.events := rfl
@[simp] theorem State.countCycle_bus : (s.countCycle).bus = s.bus := rfl
@[simp] theorem State.countCycle_phase : (s.countCycle).phase = s.phase := rfl

end

section
variable (s : State) (why : StopReason)

@[simp] theorem State.endRun_x : (s.endRun why).x = s.x := rfl
@[simp] theorem State.endRun_g : (s.endRun why).g = s.g := rfl
@[simp] theorem State.endRun_latch : (s.endRun why).latch = s.latch := rfl
@[simp] theorem State.endRun_pc : (s.endRun why).pc = s.pc := rfl
@[simp] theorem State.endRun_program : (s.endRun why).program = s.program := rfl
@[simp] theorem State.endRun_n : (s.endRun why).n = s.n := rfl
@[simp] theorem State.endRun_tape : (s.endRun why).tape = s.tape := rfl
@[simp] theorem State.endRun_cap : (s.endRun why).cap = s.cap := rfl
@[simp] theorem State.endRun_status : (s.endRun why).status = .ended why := rfl
@[simp] theorem State.endRun_events : (s.endRun why).events = s.events ++ [.final s.output s.n why] := rfl
@[simp] theorem State.endRun_bus : (s.endRun why).bus = s.bus := rfl
@[simp] theorem State.endRun_phase : (s.endRun why).phase = s.phase := rfl

end

/-! The tape: what it holds never changes, only the position does (rules R26, R27, R183). -/

@[simp] theorem Tape.advance_instructions (t : Tape) : t.advance.instructions = t.instructions := rfl

@[simp] theorem Tape.advance_pc (t : Tape) :
    (t.advance.pc : Nat) = (t.pc + 1) % t.instructions.length := rfl

@[simp] theorem State.advance_program (s : State) : s.advance.program = s.program := by
  cases h : s.tape <;> simp [State.program, h]

/-- Where there is a tape, the position moves on by one, modulo `LEN`. -/
theorem State.advance_pc {s : State} (h : s.tape.isSome) :
    s.advance.pc = (s.pc + 1) % s.program.length := by
  obtain ⟨t, ht⟩ := Option.isSome_iff_exists.1 h
  simp [State.pc, State.program, ht]

/-- Where there is a tape, the position is on it (rule R25). -/
theorem State.pc_lt {s : State} (h : s.tape.isSome) : s.pc < s.program.length := by
  obtain ⟨t, ht⟩ := Option.isSome_iff_exists.1 h
  simp [State.pc, State.program, ht]

/-! The register file, the inputs and the latches, cell by cell. -/

/-- A read of the cell just written gives the value written (rule R52). -/
@[simp] theorem RegFile.get_set_same (f : RegFile) (i : Reg) (v : Nibble) : (f.set i v).get i = v := by
  cases i <;> rfl

/-- A write leaves every other cell alone (rule R52). -/
theorem RegFile.get_set_other (f : RegFile) (i j : Reg) (v : Nibble) (h : j ≠ i) :
    (f.set i v).get j = f.get j := by
  cases i <;> cases j <;> first | rfl | exact absurd rfl h

/-- Two writes of one value do not interact (rule R61). -/
theorem RegFile.set_comm (f : RegFile) (i j : Reg) (v : Nibble) :
    (f.set i v).set j v = (f.set j v).set i v := by
  cases i <;> cases j <;> rfl

/-- A repeated write of one value is one write (rule R56). -/
@[simp] theorem RegFile.set_set (f : RegFile) (i : Reg) (v w : Nibble) :
    (f.set i v).set i w = f.set i w := by
  cases i <;> rfl

/-- Register files with equal cells are equal. -/
theorem RegFile.ext_get {f f' : RegFile} (h : ∀ i, f.get i = f'.get i) : f = f' := by
  cases f; cases f'
  simp only [RegFile.mk.injEq]
  exact ⟨h .x1, h .x2, h .x3, h .x4, h .x5, h .x6, h .x7, h .x8⟩

@[simp] theorem Latches.get_set_same (l : Latches) (k : Latch) (b : Bool) : (l.set k b).get k = b := by
  cases k <;> rfl

/-- A latch write leaves the other latch alone (rule R30). -/
theorem Latches.get_set_other (l : Latches) (k m : Latch) (b : Bool) (h : m ≠ k) :
    (l.set k b).get m = l.get m := by
  cases k <;> cases m <;> first | rfl | exact absurd rfl h

/-- The gate in the latch's own bits (rule R12). -/
theorem State.gate_eq (s : State) : s.gate = (s.latch.l1 || s.latch.l2) := rfl

end Sys2Proof.Machine
end

