-- ==== Sys2Proof/Laws/Ops.lean ====
section
/-! SUPPORT. Sys2Proof/Laws/Ops.lean: for each shared operation, what it can do. -/

namespace Sys2Proof.Machine

/-! The arithmetic, taken to the naturals. -/

theorem toNat_lt_sixteen (a : Nibble) : a.toNat < 16 := a.isLt

theorem clamp15_toNat (v : Nat) : (clamp15 v).toNat = min v 15 := by
  have : min v 15 < 16 := by omega
  simp [clamp15, Config.maxValue, BitVec.toNat_ofNat, Nat.mod_eq_of_lt this]

/-- The defensive clamp is the identity on a 4-bit value (rules R12, R144). -/
theorem clamp15_of_nibble (b : Nibble) : clamp15 b.toNat = b := by
  apply BitVec.eq_of_toNat_eq
  rw [clamp15_toNat]
  have := toNat_lt_sixteen b
  omega

theorem satAdd_toNat (a b : Nibble) : (satAdd a b).toNat = min (a.toNat + b.toNat) 15 :=
  clamp15_toNat _

theorem satSub_toNat (a b : Nibble) : (satSub a b).toNat = a.toNat - b.toNat := by
  have ha := toNat_lt_sixteen a
  unfold satSub
  split
  · rw [BitVec.toNat_ofNat]; omega
  · have : (0 : Nibble).toNat = 0 := rfl
    omega

theorem boolValue_toNat (c : Bool) : (boolValue c).toNat = c.toNat := by
  cases c <;> rfl

theorem busMax_toNat (a b : Nibble) : (busMax a b).toNat = max a.toNat b.toNat := by
  unfold busMax; split <;> omega

theorem busMax_zero (a : Nibble) : busMax a 0 = a := by
  apply BitVec.eq_of_toNat_eq
  rw [busMax_toNat]
  simp

theorem busMax_comm (a b : Nibble) : busMax a b = busMax b a := by
  apply BitVec.eq_of_toNat_eq
  rw [busMax_toNat, busMax_toNat, Nat.max_comm]

theorem busMax_assoc (a b c : Nibble) : busMax (busMax a b) c = busMax a (busMax b c) := by
  apply BitVec.eq_of_toNat_eq
  simp only [busMax_toNat, Nat.max_assoc]

/-! Tokens and sequencing. -/

/-- A token in the first half of a cycle drives the bus and does nothing else (rule R100). -/
theorem signal_evaluate {s : State} (h : s.phase = .evaluate) (eval : State → Nibble)
    (act : State → State) : signal eval act s = .next (s.drive (eval s)) := by
  simp only [signal, h]

/-- A token in the second half is applied (rule R140). -/
theorem signal_apply {s : State} (h : s.phase = .apply) (eval : State → Nibble)
    (act : State → State) : signal eval act s = .next (act s) := by
  simp only [signal, h]

/-- Offering nothing leaves the state as it is (rule R132). -/
theorem drive_zero (s : State) : s.drive 0 = s := by
  simp only [State.drive, busMax_zero]

theorem gated_of_gate {s : State} (h : s.gate = true) (act : State → State) : gated act s = s := by
  simp only [gated, h, if_true]

theorem gated_of_not_gate {s : State} (h : s.gate = false) (act : State → State) :
    gated act s = act s := by
  simp only [gated, h, Bool.false_eq_true, if_false]

/-- A sequence answers a next state exactly if both parts do. -/
theorem andThen_eq_next {o : Outcome} {f : State → Outcome} {t : State} :
    andThen o f = .next t ↔ ∃ m, o = .next m ∧ f m = .next t := by
  cases o <;> simp [andThen]

/-- The notification of a cycle touches nothing but the events (rules R196, R203). -/
theorem notifyChange_eq (before s : State) :
    State.notifyChange before s = { s with events := s.events ++
      if s.output = before.output then [] else [.notify s.n (s.n / s.program.length) s.output] } := by
  unfold State.notifyChange
  split <;> simp [State.emit]

end Sys2Proof.Machine
end

