-- ==== Sys2Proof/Laws/Exec.lean ====
section
/-! SUPPORT. Sys2Proof/Laws/Exec.lean: what a token, a list of tokens and a step can do, said once. -/

namespace Sys2Proof.Machine

/-- Every token's meaning is a `signal`: it never stops (rule R210). -/
theorem exec_is_signal (i : Instr) : ∃ eval act, ∀ s, exec i s = signal eval act s := by
  cases i <;> exact ⟨_, _, fun _ => rfl⟩

/-- Every token answers a next state, in either half of a cycle (rule R210). -/
theorem exec_answers (i : Instr) (s : State) : ∃ t, exec i s = .next t := by
  obtain ⟨eval, act, h⟩ := exec_is_signal i
  rw [h]
  cases hp : s.phase
  · exact ⟨_, signal_evaluate hp _ _⟩
  · exact ⟨_, signal_apply hp _ _⟩

/-- The second half of a cycle touches only registers and latches (rules R140, R180). -/
theorem exec_apply_frame {i : Instr} {s t : State} (hp : s.phase = .apply) (h : exec i s = .next t) :
    t = { s with x := t.x, latch := t.latch } := by
  cases i <;> simp only [exec, execR1, execR2, execR3, execR4, execR5, execR6, execR7, execR8,
    execW1, execW2, execW3, execW4, execW5, execW6, execW7, execW8, execG1, execG2, execG3, execG4,
    execG5, execAdd, execSub, execLt, execGt, execEq, execOverflow, execJ1, execJ2, execE1, execE2,
    execHalt, execUnknown, signal_apply hp, Host.Outcome.next.injEq] at h <;> subst h <;>
    simp only [appliesNothing, gated, writeBus, jumpSet, jumpClear, State.writeReg, State.setLatch] <;>
    (try split) <;> rfl

/-- The first half of a cycle touches only the bus (rules R39, R100). -/
theorem exec_evaluate_frame {i : Instr} {s t : State} (hp : s.phase = .evaluate)
    (h : exec i s = .next t) : t = { s with bus := t.bus } := by
  obtain ⟨eval, act, hi⟩ := exec_is_signal i
  rw [hi, signal_evaluate hp, Host.Outcome.next.injEq] at h
  subst h
  rfl

/-- The frame of every token: nothing but registers, latches and bus can change. -/
theorem exec_frame {i : Instr} {s t : State} (h : exec i s = .next t) :
    t = { s with x := t.x, latch := t.latch, bus := t.bus } := by
  cases hp : s.phase
  · rw [exec_evaluate_frame hp h]; simp only [hp]
  · rw [exec_apply_frame hp h]; simp only [hp]

theorem runTokens_cons_eq_next {i : Instr} {is : Instruction} {s t : State} :
    runTokens (i :: is) s = .next t ↔ ∃ m, exec i s = .next m ∧ runTokens is m = .next t :=
  andThen_eq_next

/-- A list of tokens answers a next state. -/
theorem runTokens_answers (is : Instruction) (s : State) : ∃ t, runTokens is s = .next t := by
  induction is generalizing s with
  | nil => exact ⟨s, rfl⟩
  | cons i is ih =>
    obtain ⟨m, hm⟩ := exec_answers i s
    obtain ⟨t, ht⟩ := ih m
    exact ⟨t, runTokens_cons_eq_next.2 ⟨m, hm, ht⟩⟩

/-- The frame of a list of tokens. -/
theorem runTokens_frame {is : Instruction} {s t : State} (h : runTokens is s = .next t) :
    t = { s with x := t.x, latch := t.latch, bus := t.bus } := by
  induction is generalizing s with
  | nil => cases h; rfl
  | cons i is ih =>
    obtain ⟨m, hm, ht⟩ := runTokens_cons_eq_next.1 h
    rw [ih ht, exec_frame hm]

/-- The fetch gives nothing exactly before construction (rules R25, R200). -/
theorem fetch_eq_none {s : State} : s.fetch = none ↔ s.tape = none := Option.map_eq_none_iff

/-- Before construction a step changes nothing (log 2). -/
theorem step_of_no_tape {s : State} (h : s.tape = none) : step s = .next s := by
  cases hs : s.status <;> simp only [step, runLoopStep, hs, fetch_eq_none.2 h]

/-- After the end a step changes nothing (rule R202; log 4). -/
theorem step_of_ended {s : State} {why : StopReason} (h : s.status = .ended why) : step s = .next s := by
  simp only [step, runLoopStep, h]

/-- What a step can do from a running state on an instruction: end the run by a halt, end it at the
cap, or run a cycle and finish it (rules R190-R194). -/
theorem step_cases {s t : State} {i : Instruction} (hr : s.status = .running)
    (hf : s.fetch = some i) (h : step s = .next t) :
    (haltNow i s = true ∧ t = s.endRun .halted) ∨
    (haltNow i s = false ∧ s.cap ≤ s.n ∧ t = s.endRun .cap) ∨
    (haltNow i s = false ∧ s.n < s.cap ∧ ∃ c, clockCycle i s = .next c ∧ t = finishCycle s c) := by
  simp only [step, runLoopStep, hr, hf, runLoopTurn] at h
  split at h
  · cases h; exact .inl ⟨‹_›, rfl⟩
  · have hh : haltNow i s = false := by simpa using ‹¬haltNow i s = true›
    split at h
    · obtain ⟨c, hc, hn⟩ := andThen_eq_next.1 h
      cases hn
      exact .inr (.inr ⟨hh, ‹_›, c, hc, rfl⟩)
    · cases h
      exact .inr (.inl ⟨hh, by omega, rfl⟩)

/-- The two halves of a cycle, taken apart (rule R180). -/
theorem clockCycle_eq_next {i : Instruction} {s t : State} :
    clockCycle i s = .next t ↔ ∃ e a, runTokens i s.openCycle = .next e ∧
      runTokens i e.enterApply = .next a ∧ t = a.advance := by
  simp only [clockCycle, andThen_eq_next, Host.Outcome.next.injEq]
  constructor
  · rintro ⟨e, he, a, ha, rfl⟩; exact ⟨e, a, he, ha, rfl⟩
  · rintro ⟨e, a, he, ha, rfl⟩; exact ⟨e, he, a, ha, rfl⟩

/-- One step and then `k` more. -/
theorem run_succ (k : Nat) (s : State) : run (k + 1) s = andThen (step s) (run k) := by
  cases h : step s <;>
    simp only [run, Host.Core.run, show Sys2Proof.core.step s = _ from h, andThen] <;> rfl

/-- A property that every step keeps is kept by every run: the induction, packaged once. -/
theorem run_keeps (P : State → Prop) (hstep : ∀ s t, P s → step s = .next t → P t) :
    ∀ k s t, P s → run k s = .next t → P t := by
  intro k
  induction k with
  | zero => intro s t h e; cases e; exact h
  | succ k ih =>
    intro s t h e
    rw [run_succ] at e
    obtain ⟨m, hm, ht⟩ := andThen_eq_next.1 e
    exact ih m t (hstep s m h hm) ht

/-- The range check of a launch, on integers (rule R215). -/
theorem inputsInRange_iff (l : Launch) :
    l.inputsInRange = true ↔ ∀ v ∈ l.inputs, 0 ≤ v ∧ v ≤ 15 := by
  simp only [Launch.inputsInRange, List.all_eq_true, Bool.and_eq_true, decide_eq_true_eq]
  exact Iff.rfl

end Sys2Proof.Machine
end

