-- ==== Sys2Proof/Laws/PerInstr.lean ====
section
/-! SUPPORT. Sys2Proof/Laws/PerInstr.lean: the per-instruction family `Encoding`: every token is
well-formed and its code and its spelling decode to it (rules R73, R80, R81). -/

namespace Sys2Proof.Laws.Encoding

/-- The token is well-formed, decodes from its own code, and is read back from its own text. -/
def Statement (i : Instr) : Prop :=
  i.wellFormed = true ∧ decodeCode (encode i) = i ∧ parseToken (spelling i) = i

theorem r1 : Statement .r1 := by unfold Statement; decide
theorem r2 : Statement .r2 := by unfold Statement; decide
theorem r3 : Statement .r3 := by unfold Statement; decide
theorem r4 : Statement .r4 := by unfold Statement; decide
theorem r5 : Statement .r5 := by unfold Statement; decide
theorem r6 : Statement .r6 := by unfold Statement; decide
theorem r7 : Statement .r7 := by unfold Statement; decide
theorem r8 : Statement .r8 := by unfold Statement; decide
theorem w1 : Statement .w1 := by unfold Statement; decide
theorem w2 : Statement .w2 := by unfold Statement; decide
theorem w3 : Statement .w3 := by unfold Statement; decide
theorem w4 : Statement .w4 := by unfold Statement; decide
theorem w5 : Statement .w5 := by unfold Statement; decide
theorem w6 : Statement .w6 := by unfold Statement; decide
theorem w7 : Statement .w7 := by unfold Statement; decide
theorem w8 : Statement .w8 := by unfold Statement; decide
theorem g1 : Statement .g1 := by unfold Statement; decide
theorem g2 : Statement .g2 := by unfold Statement; decide
theorem g3 : Statement .g3 := by unfold Statement; decide
theorem g4 : Statement .g4 := by unfold Statement; decide
theorem g5 : Statement .g5 := by unfold Statement; decide
theorem add : Statement .add := by unfold Statement; decide
theorem sub : Statement .sub := by unfold Statement; decide
theorem lt : Statement .lt := by unfold Statement; decide
theorem gt : Statement .gt := by unfold Statement; decide
theorem eq : Statement .eq := by unfold Statement; decide
theorem overflow : Statement .overflow := by unfold Statement; decide
theorem j1 : Statement .j1 := by unfold Statement; decide
theorem j2 : Statement .j2 := by unfold Statement; decide
theorem e1 : Statement .e1 := by unfold Statement; decide
theorem e2 : Statement .e2 := by unfold Statement; decide
theorem halt : Statement .halt := by unfold Statement; decide
theorem unknown : Statement .unknown := by unfold Statement; decide

end Sys2Proof.Laws.Encoding
end

