-- ==== Sys2Proof/Laws/Reference.lean ====
section
/-! SUPPORT. Sys2Proof/Laws/Reference.lean: each token's meaning is the spec's `eval` and `apply`. -/

namespace Sys2Proof.Machine

theorem satSub_eq (a b : Nibble) : satSub a b = BitVec.ofNat 4 (a.toNat - b.toNat) := by
  apply BitVec.eq_of_toNat_eq
  have := toNat_lt_sixteen a
  rw [satSub_toNat, BitVec.toNat_ofNat]
  omega

theorem equalSignal_eq (a b : Nibble) : equalSignal a b = if a = b then 1 else 0 := by
  by_cases h : a = b
  · simp [equalSignal, boolValue, h]
  · have h' : a.toNat ≠ b.toNat := fun e => h (BitVec.eq_of_toNat_eq e)
    simp [equalSignal, boolValue, h, h']

theorem lessSignal_eq (a b : Nibble) : lessSignal a b = if a.toNat < b.toNat then 1 else 0 := by
  by_cases h : a.toNat < b.toNat <;> simp [lessSignal, boolValue, h]

theorem greaterSignal_eq (a b : Nibble) : greaterSignal a b = if b.toNat < a.toNat then 1 else 0 := by
  by_cases h : b.toNat < a.toNat <;> simp [greaterSignal, boolValue, h]

theorem overflowSignal_eq (a b : Nibble) :
    overflowSignal a b = if 15 < a.toNat + b.toNat then 1 else 0 := by
  by_cases h : 15 < a.toNat + b.toNat <;> simp [overflowSignal, boolValue, Config.maxValue, h]

/-- In the first half of a cycle a token drives the bus with the spec's `eval` (rule R100). -/
theorem exec_eq_evalToken {s : State} (hp : s.phase = .evaluate) (i : Instr) :
    exec i s = .next (s.drive (Reference.evalToken s i)) := by
  cases i <;> simp only [exec, execR1, execR2, execR3, execR4, execR5, execR6, execR7, execR8,
    execW1, execW2, execW3, execW4, execW5, execW6, execW7, execW8, execG1, execG2, execG3, execG4,
    execG5, execAdd, execSub, execLt, execGt, execEq, execOverflow, execJ1, execJ2, execE1, execE2,
    execHalt, execUnknown, signal_evaluate hp, Reference.evalToken, offersNothing, State.readReg,
    State.readInput, State.leftOperand, State.rightOperand, RegFile.get, Inputs.get, satAdd,
    clamp15, satSub_eq, equalSignal_eq, lessSignal_eq, greaterSignal_eq, overflowSignal_eq,
    Config.maxValue]

/-- In the second half of a cycle a token acts as the spec's `apply` (rule R140). -/
theorem exec_eq_applyToken {s : State} (hp : s.phase = .apply) (i : Instr) :
    exec i s = .next (Reference.applyToken s.bus s i) := by
  cases hg : s.latch.l1 || s.latch.l2 <;> cases i <;>
    simp [exec, execR1, execR2, execR3, execR4, execR5, execR6, execR7, execR8,
    execW1, execW2, execW3, execW4, execW5, execW6, execW7, execW8, execG1, execG2, execG3, execG4,
    execG5, execAdd, execSub, execLt, execGt, execEq, execOverflow, execJ1, execJ2, execE1, execE2,
    execHalt, execUnknown, signal_apply hp, Reference.applyToken, Reference.gateOpen,
    Reference.isMutable, Reference.dispatchToken, gated, State.gate, Latches.get, hg,
    appliesNothing, writeBus, jumpSet, jumpClear, State.writeReg, State.setLatch, RegFile.set,
    Latches.set, clamp15, Config.maxValue]

end Sys2Proof.Machine
end

