-- ==== Sys2Proof/Tests/Slice0.lean ====
section
/-! SUPPORT. Sys2Proof/Tests/Slice0.lean: the model's own tests. Expected results are those of
spec/95_test_vectors.md and of the rules' own examples; the last part shows, for every statement with
hypotheses, a state and operands that meet them. -/

namespace Sys2Proof.Tests

open Sys2Proof Sys2Proof.Machine

/-! Well-formedness: an ill-formed launch for each check (rule R215). -/

theorem test_wellFormed_launch : Launch.wellFormed ⟨[[.r1]], [0, 15, 2, 3, 4], 0⟩ = true := by decide
theorem test_emptyProgram_ill : Launch.wellFormed ⟨[], [0, 1, 2, 3, 4], 9⟩ = false := by decide
theorem test_fourInputs_ill : Launch.wellFormed ⟨[[.r1]], [0, 1, 2, 3], 9⟩ = false := by decide
theorem test_sixInputs_ill : Launch.wellFormed ⟨[[.r1]], [0, 1, 2, 3, 4, 5], 9⟩ = false := by decide
theorem test_inputAbove_ill : Launch.wellFormed ⟨[[.r1]], [0, 1, 16, 3, 4], 9⟩ = false := by decide
theorem test_inputBelow_ill : Launch.wellFormed ⟨[[.r1]], [0, 1, -1, 3, 4], 9⟩ = false := by decide
theorem test_everyInstruction_wellFormed : wellFormedInstruction [.halt, .unknown] = true := by decide

/-! Decoding: words written out from rule R80, `code[5:3]` the family, `code[2:0]` the index; every
constructor has its word. -/

theorem test_decode_registerReads :
    decodeInstruction [0b000000, 0b000001, 0b000010, 0b000011, 0b000100, 0b000101, 0b000110, 0b000111]
      = [.r1, .r2, .r3, .r4, .r5, .r6, .r7, .r8] := by decide
theorem test_decode_registerWrites :
    decodeInstruction [0b001000, 0b001001, 0b001010, 0b001011, 0b001100, 0b001101, 0b001110, 0b001111]
      = [.w1, .w2, .w3, .w4, .w5, .w6, .w7, .w8] := by decide
theorem test_decode_inputReads :
    decodeInstruction [0b010000, 0b010001, 0b010010, 0b010011, 0b010100, 0b010101, 0b010110, 0b010111]
      = [.g1, .g2, .g3, .g4, .g5, .unknown, .unknown, .unknown] := by decide
theorem test_decode_alu :
    decodeInstruction [0b011000, 0b011001, 0b011010, 0b011011, 0b011100, 0b011101, 0b011110, 0b011111]
      = [.add, .sub, .lt, .gt, .eq, .overflow, .unknown, .unknown] := by decide
theorem test_decode_control :
    decodeInstruction [0b100000, 0b100001, 0b100010, 0b100011, 0b100100, 0b100101, 0b100111]
      = [.j1, .j2, .e1, .e2, .halt, .unknown, .unknown] := by decide
theorem test_decode_unassigned :
    decodeInstruction [0b101000, 0b101111, 0b110000, 0b111111] = [.unknown, .unknown, .unknown, .unknown] := by
  decide
theorem test_tableWord_halt : decodeTableWord 8 0x24 = some .halt := by decide
theorem test_tableWord_sevenBits : decodeTableWord 8 0x40 = none := by decide
/-- The codes of program P7's first instruction (spec/95_test_vectors.md). -/
theorem test_decodeCounted :
    decodeCounted 5 [18, 32, 10, 34, 11, 36] = some ([.g3, .j1, .w3, .e1, .w4], [36]) := by decide
theorem test_decodeCounted_short : decodeCounted 2 [18] = none := by decide

/-! Text: rules R76, R77, R79, R85. -/

theorem test_parse_comment :
    parseLine ['G', '1', ',', 'W', '8', ' ', 'l', 'o', 'a', 'd'] = some [.g1, .w8] := by decide
theorem test_parse_spaceAfterComma : parseLine ['R', '1', ',', ' ', 'W', '2'] = some [.r1, .unknown] := by
  decide
theorem test_parse_doubledComma :
    parseLine ['R', '1', ',', ',', 'W', '2'] = some [.r1, .unknown, .w2] := by decide
theorem test_parse_trailingComma : parseLine ['H', 'A', 'L', 'T', ','] = some [.halt, .unknown] := by decide
theorem test_parse_blank : parseLine [] = some [.unknown] := by decide
theorem test_parse_leadingSpace : parseLine [' ', 'R', '1'] = none := by decide
theorem test_parse_nearMisses :
    [['r', '1'], ['R', '9'], ['G', '6'], ['J', '3'], ['W', '0'], ['R', '0', '1'], ['h', 'a', 'l', 't'],
      ['=', '='], ['<', '=']].map parseToken = List.replicate 9 .unknown := by decide
theorem test_parse_overflow : parseToken ['o', 'v', 'e', 'r', 'f', 'l', 'o', 'w'] = .overflow := by decide

/-! The arithmetic: the corner rows of spec/95_test_vectors.md section 2. -/

theorem test_add_corners :
    (satAdd 7 8, satAdd 8 8, satAdd 15 15, satAdd 3 6, satAdd 0 0) = (15, 15, 15, 9, 0) := by decide
theorem test_sub_corners :
    (satSub 8 7, satSub 7 8, satSub 15 1, satSub 15 15, satSub 0 15) = (1, 0, 14, 0, 0) := by decide
theorem test_overflow_corners :
    (overflowSignal 7 8, overflowSignal 8 8, overflowSignal 15 0, overflowSignal 9 8) = (0, 1, 0, 1) := by
  decide
theorem test_comparison_corners :
    (lessSignal 0 15, lessSignal 6 6, greaterSignal 15 0, greaterSignal 6 6, equalSignal 0 0,
      equalSignal 7 8) = (1, 0, 1, 0, 1, 0) := by decide
theorem test_latch_word : (Latches.word ⟨true, false⟩, Latches.word ⟨false, true⟩) = (1, 2) := by decide

/-! One cycle: spec/95_test_vectors.md section 3, from `x = 9 4 5 10 7 3 0 12` and
`g = [2,6,1,0,9]`. -/

/-- The start state of the vectors, the instruction at position 0 of a two-instruction tape. -/
def demo (i : Instruction) (l : Latches) : State :=
  { State.reset with
    x := ⟨9, 4, 5, 10, 7, 3, 0, 12⟩, g := ⟨2, 6, 1, 0, 9⟩, latch := l
    tape := Tape.ofProgram [i, [.r1]] }

/-- The same with the position at the second instruction. -/
def demoAtOne (i j : Instruction) (l : Latches) : State :=
  { demo i l with tape := some ⟨[encodeInstruction i, encodeInstruction j], 1⟩ }

/-- The next state of an outcome. -/
def nextOf : Outcome → Option State
  | .next s => some s
  | .fault _ => none
  | .refused _ => none

/-- Registers and latches after one step on an instruction. -/
def after (i : Instruction) (l : Latches) : Option (RegFile × Latches) :=
  (nextOf (step (demo i l))).map fun t => (t.x, t.latch)

theorem test_move :
    after [.r1, .w3] ⟨false, false⟩ = some (⟨9, 4, 9, 10, 7, 3, 0, 12⟩, ⟨false, false⟩) := by decide
theorem test_two_sources_take_the_maximum :
    after [.r3, .r4, .w1] ⟨false, false⟩ = some (⟨10, 4, 5, 10, 7, 3, 0, 12⟩, ⟨false, false⟩) := by decide
theorem test_write_first_still_reads_old :
    after [.w1, .r1] ⟨false, false⟩ = some (⟨9, 4, 5, 10, 7, 3, 0, 12⟩, ⟨false, false⟩) := by decide
theorem test_read_alone_is_no_op :
    after [.r8] ⟨false, false⟩ = some (⟨9, 4, 5, 10, 7, 3, 0, 12⟩, ⟨false, false⟩) := by decide
theorem test_reads_r2_r5 :
    after [.r2, .r5, .w4] ⟨false, false⟩ = some (⟨9, 4, 5, 7, 7, 3, 0, 12⟩, ⟨false, false⟩) := by decide
theorem test_reads_r6_r7 :
    after [.r6, .r7, .w4] ⟨false, false⟩ = some (⟨9, 4, 5, 3, 7, 3, 0, 12⟩, ⟨false, false⟩) := by decide
theorem test_input_g1 :
    after [.g1, .w8] ⟨false, false⟩ = some (⟨9, 4, 5, 10, 7, 3, 0, 2⟩, ⟨false, false⟩) := by decide
theorem test_inputs_g5_g1 :
    after [.g5, .g1, .w3] ⟨false, false⟩ = some (⟨9, 4, 9, 10, 7, 3, 0, 12⟩, ⟨false, false⟩) := by decide
theorem test_inputs_g2_g3 :
    after [.g2, .g3, .w7] ⟨false, false⟩ = some (⟨9, 4, 5, 10, 7, 3, 6, 12⟩, ⟨false, false⟩) := by decide
theorem test_input_of_zero :
    after [.g4, .w1] ⟨false, false⟩ = some (⟨0, 4, 5, 10, 7, 3, 0, 12⟩, ⟨false, false⟩) := by decide
theorem test_add :
    after [.add, .w3] ⟨false, false⟩ = some (⟨9, 4, 13, 10, 7, 3, 0, 12⟩, ⟨false, false⟩) := by decide
theorem test_sub :
    after [.sub, .w3] ⟨false, false⟩ = some (⟨9, 4, 5, 10, 7, 3, 0, 12⟩, ⟨false, false⟩) := by decide
theorem test_add_into_its_operand :
    after [.add, .w1] ⟨false, false⟩ = some (⟨13, 4, 5, 10, 7, 3, 0, 12⟩, ⟨false, false⟩) := by decide
theorem test_lt_false :
    after [.lt, .w3] ⟨false, false⟩ = some (⟨9, 4, 0, 10, 7, 3, 0, 12⟩, ⟨false, false⟩) := by decide
theorem test_gt_true :
    after [.gt, .w3] ⟨false, false⟩ = some (⟨9, 4, 1, 10, 7, 3, 0, 12⟩, ⟨false, false⟩) := by decide
theorem test_eq_false :
    after [.eq, .w3] ⟨false, false⟩ = some (⟨9, 4, 0, 10, 7, 3, 0, 12⟩, ⟨false, false⟩) := by decide
theorem test_overflow_false :
    after [.overflow, .w3] ⟨false, false⟩ = some (⟨9, 4, 0, 10, 7, 3, 0, 12⟩, ⟨false, false⟩) := by decide
theorem test_write_without_source_clears :
    after [.w3] ⟨false, false⟩ = some (⟨9, 4, 0, 10, 7, 3, 0, 12⟩, ⟨false, false⟩) := by decide
theorem test_fan_out :
    after [.r1, .w5, .w6, .w7] ⟨false, false⟩ = some (⟨9, 4, 5, 10, 9, 9, 9, 12⟩, ⟨false, false⟩) := by decide
theorem test_write_w2 :
    after [.r8, .w2] ⟨false, false⟩ = some (⟨9, 12, 5, 10, 7, 3, 0, 12⟩, ⟨false, false⟩) := by decide
theorem test_gated_by_latch_one :
    after [.r1, .w5] ⟨true, false⟩ = some (⟨9, 4, 5, 10, 7, 3, 0, 12⟩, ⟨true, false⟩) := by decide
theorem test_gated_by_latch_two :
    after [.r1, .w6] ⟨false, true⟩ = some (⟨9, 4, 5, 10, 7, 3, 0, 12⟩, ⟨false, true⟩) := by decide
theorem test_jump_then_write_is_gated :
    after [.g3, .j1, .w3] ⟨false, false⟩ = some (⟨9, 4, 5, 10, 7, 3, 0, 12⟩, ⟨true, false⟩) := by decide
theorem test_write_then_jump :
    after [.g3, .w3, .j1] ⟨false, false⟩ = some (⟨9, 4, 1, 10, 7, 3, 0, 12⟩, ⟨true, false⟩) := by decide
theorem test_end_opens_the_gate :
    after [.g3, .e1, .w3] ⟨true, false⟩ = some (⟨9, 4, 1, 10, 7, 3, 0, 12⟩, ⟨false, false⟩) := by decide
theorem test_end_one_leaves_latch_two :
    after [.g3, .e1, .w3] ⟨true, true⟩ = some (⟨9, 4, 5, 10, 7, 3, 0, 12⟩, ⟨false, true⟩) := by decide
theorem test_gate_closes_and_opens :
    after [.g3, .j1, .w3, .e1, .w4] ⟨false, false⟩ = some (⟨9, 4, 5, 1, 7, 3, 0, 12⟩, ⟨false, false⟩) := by decide
theorem test_idle_jump_then_write :
    after [.j1, .w3] ⟨false, false⟩ = some (⟨9, 4, 0, 10, 7, 3, 0, 12⟩, ⟨false, false⟩) := by decide
theorem test_jump_is_sticky :
    after [.g4, .j1] ⟨true, false⟩ = some (⟨9, 4, 5, 10, 7, 3, 0, 12⟩, ⟨true, false⟩) := by decide
theorem test_both_jumps :
    after [.g3, .j1, .j2] ⟨false, false⟩ = some (⟨9, 4, 5, 10, 7, 3, 0, 12⟩, ⟨true, true⟩) := by decide
theorem test_later_end_wins :
    after [.g3, .j1, .e1] ⟨false, false⟩ = some (⟨9, 4, 5, 10, 7, 3, 0, 12⟩, ⟨false, false⟩) := by decide
theorem test_later_jump_wins :
    after [.g3, .e1, .j1] ⟨false, false⟩ = some (⟨9, 4, 5, 10, 7, 3, 0, 12⟩, ⟨true, false⟩) := by decide
theorem test_end_two_alone :
    after [.e2] ⟨true, true⟩ = some (⟨9, 4, 5, 10, 7, 3, 0, 12⟩, ⟨true, false⟩) := by decide
theorem test_jump_in_a_window_sees_the_maximum :
    after [.lt, .r5, .j2] ⟨true, false⟩ = some (⟨9, 4, 5, 10, 7, 3, 0, 12⟩, ⟨true, true⟩) := by decide
theorem test_halt_with_company_is_no_op :
    after [.halt, .r1] ⟨false, false⟩ = some (⟨9, 4, 5, 10, 7, 3, 0, 12⟩, ⟨false, false⟩) := by decide
theorem test_halt_in_a_window_is_skipped :
    after [.halt] ⟨true, false⟩ = some (⟨9, 4, 5, 10, 7, 3, 0, 12⟩, ⟨true, false⟩) := by decide
theorem test_unknown_middle_token :
    after [.r1, .unknown, .w2] ⟨false, false⟩ = some (⟨9, 9, 5, 10, 7, 3, 0, 12⟩, ⟨false, false⟩) := by decide
theorem test_misspelt_read_clears :
    after [.unknown, .w2] ⟨false, false⟩ = some (⟨9, 0, 5, 10, 7, 3, 0, 12⟩, ⟨false, false⟩) := by decide
theorem test_no_tokens :
    after [] ⟨false, false⟩ = some (⟨9, 4, 5, 10, 7, 3, 0, 12⟩, ⟨false, false⟩) := by decide

/-! The sequencer and the Run Loop: spec/95_test_vectors.md section 3.7. -/

/-- Position, count, status and events after one step. -/
def bookkeeping (s : State) : Option (Nat × Nat × RunStatus × List Event) :=
  (nextOf (step s)).map fun t => (t.pc, t.n, t.status, t.events)

theorem test_advance_and_notify :
    bookkeeping (demo [.g1, .w8] ⟨false, false⟩) = some (1, 1, .running, [.notify 0 0 2]) := by decide
/-- The last position wraps to 0; the change was made in cycle 13 of a tape of 2, so pass 6. -/
theorem test_wrap_and_pass :
    bookkeeping { demoAtOne [] [.r1, .w8] ⟨false, false⟩ with n := 13 }
      = some (0, 14, .running, [.notify 13 6 9]) := by decide
theorem test_same_value_no_notify :
    bookkeeping (demo [.r8, .w8] ⟨false, false⟩) = some (1, 1, .running, []) := by decide
theorem test_halt_stops_before_its_cycle :
    bookkeeping (demo [.halt] ⟨false, false⟩) = some (0, 0, .ended .halted, [.final 12 0 .halted]) := by
  decide
theorem test_halt_has_priority_over_cap :
    bookkeeping { demo [.halt] ⟨false, false⟩ with cap := 0 }
      = some (0, 0, .ended .halted, [.final 12 0 .halted]) := by decide
theorem test_cap_zero :
    bookkeeping { demo [.r1] ⟨false, false⟩ with cap := 0 }
      = some (0, 0, .ended .cap, [.final 12 0 .cap]) := by decide
theorem test_last_cycle_under_cap :
    bookkeeping { demo [.halt] ⟨true, false⟩ with cap := 1 } = some (1, 1, .running, []) := by decide
/-- Before the host has constructed a machine there is nothing to run (rules R200, R230; log 2). -/
theorem test_reset_waits : step State.reset = .next State.reset := rfl
/-- With `LEN = 1` the position stays 0 (rule R26). -/
theorem test_tape_of_one :
    ((nextOf (construct ⟨[[.r1]], [0, 0, 0, 0, 0], 5⟩)).bind fun s => bookkeeping s)
      = some (0, 1, .running, []) := by decide
/-- Cycle 8 of program P1: `HALT` skipped at the last position, and cycle 4, `+,W8` with 2 + 1. -/
theorem test_P1_cycle_four :
    (nextOf (step { demo [.add, .w8] ⟨false, false⟩ with x := ⟨2, 1, 0, 0, 0, 0, 0, 2⟩, n := 4 })).map
      (fun t => (t.x, t.events)) = some (⟨2, 1, 0, 0, 0, 0, 0, 3⟩, [.notify 4 2 3]) := by decide
/-- A placed word runs as the first instruction after reset. -/
theorem test_placed_word_runs :
    ((nextOf (step (State.reset.withFetchWord 8 0x1C))).map fun t => (t.pc, t.n, t.status))
      = some (0, 1, .running) := by decide
/-- So does a placed `HALT`: with both latches clear it ends the run (rule R231). -/
theorem test_placed_halt_ends :
    ((nextOf (step (State.reset.withFetchWord 8 0x24))).map fun t => (t.n, t.events))
      = some (0, [.final 0 0 .halted]) := by decide

/-! Witnesses: for every statement with hypotheses, states and operands that meet them together, each
clause at a boundary of its range. -/

/-- The vectors' state in the second half of its cycle, with a bus value. -/
def applying (l : Latches) (b : Nibble) : State :=
  { demo [] l with bus := b, phase := .apply }

/-- The vectors' state on an instruction, its run ended. -/
def ended (why : StopReason) : State := (demo [.halt] ⟨false, false⟩).endRun why

theorem witness_ProgramLinesRoundTrip :
    ([.unknown] : Instruction) ≠ [] ∧ ([.r1, .unknown] : Instruction) ≠ [] ∧
      printLine [.r1, .unknown] ≠ [] := by decide
theorem witness_phases_of_reads_and_alu :
    (demo [] ⟨true, true⟩).phase = .evaluate ∧ (applying ⟨true, true⟩ 15).phase = .apply := by decide
theorem witness_OtherTokensOfferZero : (demo [.w1] ⟨false, true⟩).phase = .evaluate := by decide
theorem witness_RegisterWritesStoreTheBus_open :
    (applying ⟨false, false⟩ 15).phase = .apply ∧ (applying ⟨false, false⟩ 15).latch.l1 = false ∧
      (applying ⟨false, false⟩ 15).latch.l2 = false := by decide
theorem witness_RegisterWritesStoreTheBus_gated :
    (applying ⟨true, false⟩ 15).phase = .apply ∧
      ((applying ⟨true, false⟩ 15).latch.l1 = true ∨ (applying ⟨true, false⟩ 15).latch.l2 = true) ∧
      ((applying ⟨false, true⟩ 15).latch.l1 = true ∨ (applying ⟨false, true⟩ 15).latch.l2 = true) := by
  decide
theorem witness_JumpTokensSetTheirLatch :
    (applying ⟨true, false⟩ 1).phase = .apply ∧ 1 ≤ (applying ⟨true, false⟩ 1).bus.toNat ∧
      (applying ⟨true, false⟩ 0).phase = .apply ∧ (applying ⟨true, false⟩ 0).bus = 0 := by decide
theorem witness_EndTokensClearTheirLatch : (applying ⟨true, true⟩ 0).phase = .apply := by decide
theorem witness_HaltAndUnknownApplyNothing : (applying ⟨true, false⟩ 3).phase = .apply := by decide
theorem witness_ThreadedGateOrder :
    1 ≤ (applying ⟨false, false⟩ 1).bus.toNat ∧ (applying ⟨false, false⟩ 1).latch = ⟨false, false⟩ ∧
      1 ≤ (applying ⟨true, false⟩ 1).bus.toNat ∧ (applying ⟨true, false⟩ 1).latch = ⟨true, false⟩ ∧
      1 ≤ (applying ⟨true, true⟩ 15).bus.toNat ∧ (applying ⟨true, true⟩ 15).latch = ⟨true, true⟩ ∧
      (applying ⟨false, false⟩ 0).bus = 0 ∧ (applying ⟨false, false⟩ 0).latch = ⟨false, false⟩ ∧
      (applying ⟨false, false⟩ 0).phase = .apply := by decide
theorem witness_BusIsTheNumericMaximum : ∀ t : Instr, t ∈ [Instr.r3, .r4] ↔ t ∈ [Instr.r4, .r3, .r4] := by
  simp [or_comm]
theorem witness_EvaluatorReadsNoLatch :
    (demo [] ⟨false, false⟩).phase = .evaluate ∧ (demo [] ⟨true, true⟩).phase = .evaluate ∧
      (demo [] ⟨false, false⟩).x = (demo [] ⟨true, true⟩).x ∧
      (demo [] ⟨false, false⟩).g = (demo [] ⟨true, true⟩).g ∧
      (demo [] ⟨false, false⟩).bus = (demo [] ⟨true, true⟩).bus := by decide
theorem witness_LatchesChange_exec :
    exec .j1 (applying ⟨false, false⟩ 1) = .next (applying ⟨true, false⟩ 1) := rfl
theorem witness_LatchesChange_step :
    (demo [.r1, .w3] ⟨true, false⟩).fetch = some [.r1, .w3] ∧
      (nextOf (step (demo [.r1, .w3] ⟨true, false⟩))).isSome ∧
      Instr.j1 ∉ [Instr.r1, .w3] ∧ Instr.e1 ∉ [Instr.r1, .w3] ∧
      Instr.j2 ∉ [Instr.r1, .w3] ∧ Instr.e2 ∉ [Instr.r1, .w3] := by decide
theorem witness_AluLawsHold :
    (demo [] ⟨false, false⟩).phase = .evaluate ∧ (demo [] ⟨false, false⟩).bus = 0 ∧
      (nextOf (exec .add (demo [] ⟨false, false⟩))).isSome ∧
      (nextOf (exec .sub (demo [] ⟨false, false⟩))).isSome ∧
      (nextOf (exec .lt (demo [] ⟨false, false⟩))).isSome ∧
      (nextOf (exec .gt (demo [] ⟨false, false⟩))).isSome ∧
      (nextOf (exec .eq (demo [] ⟨false, false⟩))).isSome ∧
      (nextOf (exec .overflow (demo [] ⟨false, false⟩))).isSome := by decide
/-- Both values of the overflow signal and both of the difference test are met. -/
theorem witness_AluLawsHold_clauses :
    (overflowSignal 8 8 = 1 ∧ overflowSignal 7 8 = 0) ∧ (satSub 4 4 = 0 ∧ greaterSignal 4 4 = 0) ∧
      (satSub 5 4 ≠ 0 ∧ greaterSignal 5 4 ≠ 0) := by decide
theorem witness_OrderIsFreeWithoutLatchTokens :
    ([.r1, .w3, .w4] : Instruction).Perm [.w4, .r1, .w3] ∧
      ∀ t ∈ ([.r1, .w3, .w4] : Instruction), Reference.isLatchToken t = false := by decide
/-- `runsCycle` at the last position, with one cycle left under the cap. -/
theorem witness_runsCycle :
    ({ demoAtOne [.w8] [.r1] ⟨false, false⟩ with n := 4, cap := 5 } : State).runsCycle [.r1] := by
  decide
/-- `runsCycle` on a `HALT` that a latch suppresses. -/
theorem witness_runsCycle_skippedHalt : (demo [.halt] ⟨false, true⟩).runsCycle [.halt] := by decide
theorem witness_RegistersChangeOnlyToTheCyclesBus :
    (demo [.r1, .w3] ⟨false, false⟩).runsCycle [.r1, .w3] ∧
      (nextOf (step (demo [.r1, .w3] ⟨false, false⟩))).any
        (fun t => t.x.get .x3 != (demo [.r1, .w3] ⟨false, false⟩).x.get .x3) = true := by decide
theorem witness_HaltEndsTheRun :
    (demo [.halt] ⟨false, false⟩).status = .running ∧
      (demo [.halt] ⟨false, false⟩).fetch = some [.halt] ∧
      (demo [.halt] ⟨false, false⟩).latch.l1 = false ∧
      (demo [.halt] ⟨false, false⟩).latch.l2 = false := by decide
theorem witness_HaltsExactly_continuing :
    let s := demo [.halt, .halt] ⟨false, false⟩
    s.status = .running ∧ s.fetch = some [.halt, .halt] ∧
      ¬(([.halt, .halt] : Instruction) = [.halt] ∧ s.latch.l1 = false ∧ s.latch.l2 = false) ∧
      s.n < s.cap := by decide
theorem witness_CapEndsTheRun :
    let s := { demo [.halt] ⟨false, true⟩ with n := 7, cap := 7 }
    s.status = .running ∧ s.fetch = some [.halt] ∧
      ¬(([.halt] : Instruction) = [.halt] ∧ s.latch.l1 = false ∧ s.latch.l2 = false) ∧ s.cap ≤ s.n := by
  decide
theorem witness_EndedRunIsFrozen :
    (ended .halted).status = .ended .halted ∧ (ended .cap).status = .ended .cap := by decide
theorem witness_TokensAndStepsNeverStop : State.reset.tape = none := rfl
theorem witness_PositionStaysOnTheTape :
    let s := demoAtOne [.r1] [.w3] ⟨false, false⟩
    s.tape.isSome = true ∧ (nextOf (exec .r1 s)).isSome ∧ (nextOf (run 1 s)).any (fun t => t.pc == 0) = true := by
  decide
theorem witness_StepRunsTheDecodedInstruction :
    (demo [.r1, .w3] ⟨false, false⟩).program[(demo [.r1, .w3] ⟨false, false⟩).pc]? = some [0, 10] ∧
      (demo [.r1, .w3] ⟨false, false⟩).runsCycle (decodeInstruction [0, 10]) ∧
      (demo [.w3] ⟨false, false⟩).program[(demo [.w3] ⟨false, false⟩).pc]? = some [10] ∧
      (demo [.w3] ⟨false, false⟩).runsCycle [decodeCode 10] := by decide
theorem witness_PlacedWordIsFetchedNext :
    decodeTableWord 8 0 = some .r1 ∧ decodeTableWord 8 63 = some .unknown := by decide
theorem witness_InputsTapeAndCapAreConstant :
    exec .r1 (demo [] ⟨false, false⟩) = .next ((demo [] ⟨false, false⟩).drive 9) ∧
      run 0 (demo [] ⟨false, false⟩) = .next (demo [] ⟨false, false⟩) := ⟨rfl, rfl⟩
theorem witness_CycleKRunsInstructionKModLen :
    let s := demo [.r1] ⟨false, false⟩
    s.tape.isSome = true ∧ s.pc = 0 ∧ s.n = 0 ∧ (nextOf (run 1 s)).any (fun t => t.status == .running) = true := by decide
theorem witness_OpenWindowFreezesRegisters :
    let s := demo [.r1, .w3] ⟨true, true⟩
    s.fetch = some [.r1, .w3] ∧ (nextOf (step s)).isSome ∧ s.latch.l1 = true ∧ s.latch.l2 = true ∧
      Instr.e1 ∉ [Instr.r1, .w3] ∧ Instr.e2 ∉ [Instr.r1, .w3] := by decide
theorem witness_UnclosedWindowRunsToTheCap :
    let s := demo [.halt] ⟨true, false⟩
    let s' := demo [.halt] ⟨false, true⟩
    s.status = .running ∧ s.tape.isSome = true ∧ (s.latch.l1 = true ∧ s.tapeLacks .e1 = true) ∧
      s'.status = .running ∧ s'.tape.isSome = true ∧ (s'.latch.l2 = true ∧ s'.tapeLacks .e2 = true) := by
  decide
theorem witness_EveryRunEndsWithinItsCap :
    let s := { demoAtOne [.w8] [.r1] ⟨false, false⟩ with n := 9, cap := 3 }
    s.tape.isSome = true := by decide
/-- The invariant on a state whose next step runs a cycle, on one whose next step halts, and on one
whose next step is the cap. -/
theorem witness_EveryStepKeepsTheInvariant :
    let s := demo [.g1, .w8] ⟨false, false⟩
    let h := demo [.halt] ⟨false, false⟩
    let c := { demo [.r1] ⟨false, false⟩ with cap := 0 }
    s.Inv ∧ (nextOf (step s)).isSome ∧ h.Inv ∧ (nextOf (step h)).isSome ∧ c.Inv ∧
      (nextOf (step c)).isSome := by decide
theorem witness_LaunchGivesTheResetState :
    Launch.wellFormed ⟨[[.halt]], [0, 15, 0, 15, 7], 0⟩ = true := by decide
theorem witness_IllFormedLaunchIsRefused :
    construct ⟨[], [0, 0, 0, 0, 0], 1⟩ = .refused .emptyTape ∧
      construct ⟨[[.r1]], [0, 0, 0, 0], 1⟩ = .refused .inputCount ∧
      construct ⟨[[.r1]], [0, 0, -1, 0, 0], 1⟩ = .refused .inputOutOfRange ∧
      construct ⟨[[.r1]], [0, 0, 16, 0, 0], 1⟩ = .refused .inputOutOfRange := ⟨rfl, rfl, rfl, rfl⟩
/-- The invariant on a state that has notified and ended. -/
theorem witness_RunTotalsHold :
    let s := { demo [.halt] ⟨false, false⟩ with
      n := 2, events := [.notify 0 0 2, .notify 1 0 12, .final 12 2 .halted], status := .ended .halted }
    s.Inv ∧ s.status ≠ .running ∧ Event.final 12 2 .halted ∈ s.events := by decide

end Sys2Proof.Tests
end

/-! State: what the state's parts depend on and what leaves them alone (spec/10_state.md). First the
frames of a cycle and of a step, then the latches' own tokens, then the statements. -/

namespace Sys2Proof.Machine

/-! The end of a cycle: notifying and counting touch only the events and the count (rules R190, R196). -/

/-- What follows a cycle changes nothing but the count and the events. -/
theorem finishCycle_frame (before s : State) : finishCycle before s =
    { s with n := s.n + 1, events := (finishCycle before s).events } := by
  simp only [finishCycle, notifyChange_eq, State.countCycle]

@[simp] theorem finishCycle_g (before s : State) : (finishCycle before s).g = s.g := by
  rw [finishCycle_frame]

@[simp] theorem finishCycle_latch (before s : State) : (finishCycle before s).latch = s.latch := by
  rw [finishCycle_frame]

@[simp] theorem finishCycle_tape (before s : State) : (finishCycle before s).tape = s.tape := by
  rw [finishCycle_frame]

@[simp] theorem finishCycle_program (before s : State) : (finishCycle before s).program = s.program := by
  rw [finishCycle_frame]; rfl

@[simp] theorem finishCycle_cap (before s : State) : (finishCycle before s).cap = s.cap := by
  rw [finishCycle_frame]

/-- The frame of a cycle: registers and latches can change, the position advances, and the scratch pair
is closed (rules R39, R180). -/
theorem clockCycle_frame {i : Instruction} {s t : State} (h : clockCycle i s = .next t) :
    t = { s.advance with x := t.x, latch := t.latch } := by
  obtain ⟨e, a, he, ha, rfl⟩ := clockCycle_eq_next.1 h
  rw [runTokens_frame ha, runTokens_frame he]
  rfl

/-- What a step can do, in any state: nothing, end the run, or run a cycle and finish it. -/
theorem step_outcomes {s t : State} (h : step s = .next t) :
    t = s ∨ (∃ why, t = s.endRun why) ∨
      ∃ i c, s.fetch = some i ∧ clockCycle i s = .next c ∧ t = finishCycle s c := by
  cases hr : s.status with
  | ended why => rw [step_of_ended hr] at h; cases h; exact .inl rfl
  | running =>
    cases hf : s.fetch with
    | none => rw [step_of_no_tape (fetch_eq_none.1 hf)] at h; cases h; exact .inl rfl
    | some i =>
      obtain ⟨_, ht⟩ | ⟨_, _, ht⟩ | ⟨_, _, c, hc, ht⟩ := step_cases hr hf h
      · exact .inr (.inl ⟨_, ht⟩)
      · exact .inr (.inl ⟨_, ht⟩)
      · exact .inr (.inr ⟨i, c, rfl, hc, ht⟩)

/-! What the host supplies stays as it was (rules R34, R40, R65). -/

/-- The two states hold the same inputs, instructions and cap: what the host supplies at construction. -/
def SameSupply (s t : State) : Prop := t.g = s.g ∧ t.program = s.program ∧ t.cap = s.cap

theorem exec_keeps_tape {i : Instr} {s t : State} (h : exec i s = .next t) : t.tape = s.tape := by
  rw [exec_frame h]

theorem exec_keeps_supply {i : Instr} {s t : State} (h : exec i s = .next t) : SameSupply s t := by
  rw [exec_frame h]
  exact ⟨rfl, rfl, rfl⟩

theorem clockCycle_keeps_supply {i : Instruction} {s t : State} (h : clockCycle i s = .next t) :
    SameSupply s t := by
  rw [clockCycle_frame h]
  exact ⟨rfl, s.advance_program, rfl⟩

theorem step_keeps_supply {s t : State} (h : step s = .next t) : SameSupply s t := by
  obtain rfl | ⟨why, rfl⟩ | ⟨i, c, _, hc, rfl⟩ := step_outcomes h
  · exact ⟨rfl, rfl, rfl⟩
  · exact ⟨rfl, rfl, rfl⟩
  · simpa only [SameSupply, finishCycle_g, finishCycle_program, finishCycle_cap]
      using clockCycle_keeps_supply hc

theorem run_keeps_supply {k : Nat} {s t : State} (h : run k s = .next t) : SameSupply s t := by
  refine run_keeps (SameSupply s) (fun u v hu hv => ?_) k s t ⟨rfl, rfl, rfl⟩ h
  obtain ⟨hg, hp, hc⟩ := hu
  obtain ⟨hg', hp', hc'⟩ := step_keeps_supply hv
  exact ⟨hg'.trans hg, hp'.trans hp, hc'.trans hc⟩

/-- No step loads a tape and none drops one: only the host's construction does (rules R40, R200). -/
theorem step_keeps_tape_loaded {s t : State} (h : step s = .next t) :
    t.tape.isSome = s.tape.isSome := by
  obtain rfl | ⟨why, rfl⟩ | ⟨i, c, _, hc, rfl⟩ := step_outcomes h
  · rfl
  · rfl
  · rw [finishCycle_tape, clockCycle_frame hc, State.advance_tape, Option.isSome_map]

theorem run_keeps_tape_loaded {k : Nat} {s t : State} (h : run k s = .next t) :
    t.tape.isSome = s.tape.isSome :=
  run_keeps (fun u => u.tape.isSome = s.tape.isSome)
    (fun _ _ hu hv => (step_keeps_tape_loaded hv).trans hu) k s t rfl h

/-! The latches and their tokens (rules R29, R32). -/

/-- `J<k>`, the token that can set a latch (rules R161, R162). -/
def setToken : Latch → Instr
  | .l1 => .j1
  | .l2 => .j2

/-- `E<k>`, the token that clears a latch (rules R163, R164). -/
def clearToken : Latch → Instr
  | .l1 => .e1
  | .l2 => .e2

theorem setToken_inj {k m : Latch} : setToken k = setToken m ↔ k = m := by
  cases k <;> cases m <;> decide

theorem clearToken_inj {k m : Latch} : clearToken k = clearToken m ↔ k = m := by
  cases k <;> cases m <;> decide

theorem setToken_ne_clearToken (k m : Latch) : setToken k ≠ clearToken m := by
  cases k <;> cases m <;> decide

@[simp] theorem isLatchToken_setToken (k : Latch) : Reference.isLatchToken (setToken k) = true := by
  cases k <;> rfl

@[simp] theorem isLatchToken_clearToken (k : Latch) :
    Reference.isLatchToken (clearToken k) = true := by
  cases k <;> rfl

/-- A token is some latch's set token, some latch's clear token, or leaves every latch alone. -/
theorem latchToken_cases (i : Instr) :
    (∃ k, i = setToken k) ∨ (∃ k, i = clearToken k) ∨ Reference.isLatchToken i = false := by
  cases i with
  | j1 => exact .inl ⟨.l1, rfl⟩
  | j2 => exact .inl ⟨.l2, rfl⟩
  | e1 => exact .inr (.inl ⟨.l1, rfl⟩)
  | e2 => exact .inr (.inl ⟨.l2, rfl⟩)
  | _ => exact .inr (.inr rfl)

section
variable (b : Nibble) (s : State)

theorem applyToken_setToken (k : Latch) :
    Reference.applyToken b s (setToken k) = if 1 ≤ b.toNat then s.setLatch k true else s := by
  cases k <;> simp [setToken, Reference.applyToken, Reference.isMutable, Reference.dispatchToken,
    State.setLatch, Latches.set]

theorem applyToken_clearToken (k : Latch) :
    Reference.applyToken b s (clearToken k) = s.setLatch k false := by
  cases k <;> simp [clearToken, Reference.applyToken, Reference.isMutable, Reference.dispatchToken,
    State.setLatch, Latches.set]

theorem applyToken_latch_of_not_latchToken {i : Instr} (h : Reference.isLatchToken i = false) :
    (Reference.applyToken b s i).latch = s.latch := by
  unfold Reference.applyToken
  split
  · rfl
  · cases i with
    | j1 | j2 | e1 | e2 => cases h
    | _ => rfl

end

/-- Reading latch `m` after a write to latch `k`. -/
theorem Latches.get_set (l : Latches) (k m : Latch) (b : Bool) :
    (l.set k b).get m = if k = m then b else l.get m := by
  split
  · subst m; exact l.get_set_same k b
  · exact l.get_set_other k m b (Ne.symm ‹_›)

/-- The value of a latch after a token is applied with bus value `b` (rule R29). -/
theorem applyToken_latch_get (b : Nibble) (s : State) (i : Instr) (m : Latch) :
    (Reference.applyToken b s i).latch.get m =
      if i = setToken m ∧ 1 ≤ b.toNat then true
      else if i = clearToken m then false else s.latch.get m := by
  obtain ⟨k, rfl⟩ | ⟨k, rfl⟩ | hi := latchToken_cases i
  · rw [applyToken_setToken, if_neg (setToken_ne_clearToken k m)]
    by_cases hb : 1 ≤ b.toNat <;> simp [hb, setToken_inj, Latches.get_set]
  · simp [applyToken_clearToken, (setToken_ne_clearToken m k).symm, clearToken_inj, Latches.get_set]
  · have hset : i ≠ setToken m := by rintro rfl; simp at hi
    have hclear : i ≠ clearToken m := by rintro rfl; simp at hi
    simp [applyToken_latch_of_not_latchToken b s hi, hset, hclear]

/-- The value of a latch after a token, in either half of a cycle (rule R29). -/
theorem exec_latch_get {i : Instr} {s t : State} (h : exec i s = .next t) (k : Latch) :
    t.latch.get k =
      if s.phase = .apply ∧ i = setToken k ∧ 1 ≤ s.bus.toNat then true
      else if s.phase = .apply ∧ i = clearToken k then false else s.latch.get k := by
  cases hp : s.phase with
  | evaluate =>
    have ht : t.latch = s.latch := by rw [exec_evaluate_frame hp h]
    simp [ht]
  | apply =>
    rw [exec_eq_applyToken hp] at h
    cases h
    simpa only [true_and] using applyToken_latch_get s.bus s i k

/-- Tokens that are neither the set nor the clear token of a latch leave it alone. -/
theorem runTokens_keeps_latch {is : Instruction} {s t : State} {k : Latch}
    (hset : setToken k ∉ is) (hclear : clearToken k ∉ is) (h : runTokens is s = .next t) :
    t.latch.get k = s.latch.get k := by
  induction is generalizing s with
  | nil => cases h; rfl
  | cons i is ih =>
    obtain ⟨m, hm, ht⟩ := runTokens_cons_eq_next.1 h
    rw [List.mem_cons, not_or] at hset hclear
    have hi : m.latch.get k = s.latch.get k := by
      rw [exec_latch_get hm, if_neg fun ⟨_, e, _⟩ => hset.1 e.symm, if_neg fun ⟨_, e⟩ => hclear.1 e.symm]
    exact (ih hset.2 hclear.2 ht).trans hi

theorem clockCycle_keeps_latch {i : Instruction} {s t : State} {k : Latch}
    (hset : setToken k ∉ i) (hclear : clearToken k ∉ i) (h : clockCycle i s = .next t) :
    t.latch.get k = s.latch.get k := by
  obtain ⟨e, a, he, ha, rfl⟩ := clockCycle_eq_next.1 h
  rw [State.advance_latch, runTokens_keeps_latch hset hclear ha, State.enterApply_latch,
    runTokens_keeps_latch hset hclear he, State.openCycle_latch]

/-- A step on an instruction without the tokens of a latch leaves it alone: neither the tape's wrapping
nor the Run Loop writes one (rule R29). -/
theorem step_keeps_latch {i : Instruction} {s t : State} {k : Latch} (hf : s.fetch = some i)
    (hset : setToken k ∉ i) (hclear : clearToken k ∉ i) (h : step s = .next t) :
    t.latch.get k = s.latch.get k := by
  obtain rfl | ⟨why, rfl⟩ | ⟨j, c, hj, hc, rfl⟩ := step_outcomes h
  · rfl
  · rfl
  · obtain rfl : i = j := Option.some.inj (hf.symm.trans hj)
    rw [finishCycle_latch, clockCycle_keeps_latch hset hclear hc]

/-- The spec's `eval` is a function of the register file and the input vector (rule R32). -/
theorem evalToken_congr {s s' : State} (hx : s.x = s'.x) (hg : s.g = s'.g) (i : Instr) :
    Reference.evalToken s i = Reference.evalToken s' i := by
  cases i <;> simp only [Reference.evalToken, hx, hg]

/-! The statements of the family. -/

/-- Settles O16: both tokens drive the bus with the spec's `eval`, which reads registers and inputs only. -/
theorem evaluatorReadsNoLatch : Obligations.EvaluatorReadsNoLatch := by
  intro i s s' hp hp' hx hg hb
  refine ⟨_, _, exec_eq_evalToken hp i, exec_eq_evalToken hp' i, ?_, rfl, rfl⟩
  rw [State.drive_bus, State.drive_bus, hb, evalToken_congr hx hg]

/-- Settles O17: each latch by its own tokens, for a token and for a whole step. -/
theorem latchesChangeOnlyByTheirTokens : Obligations.LatchesChangeOnlyByTheirTokens :=
  ⟨fun _ _ _ h => ⟨exec_latch_get h .l1, exec_latch_get h .l2⟩,
    fun _ _ _ hf h => ⟨fun hset hclear => step_keeps_latch (k := .l1) hf hset hclear h,
      fun hset hclear => step_keeps_latch (k := .l2) hf hset hclear h⟩⟩

/-- Settles O34, from the frame of a token and of a step, the run by induction on its steps. -/
theorem inputsTapeAndCapAreConstant : Obligations.InputsTapeAndCapAreConstant :=
  ⟨fun _ _ _ h => exec_keeps_supply h, fun _ _ _ h => run_keeps_supply h⟩

/-- Settles O45: a run keeps a tape loaded and its instructions, so its position is below the first
tape's length. -/
theorem positionStaysOnTheTape : Obligations.PositionStaysOnTheTape := by
  intro s hs
  refine ⟨State.pc_lt hs, fun i t h => exec_keeps_tape h, fun k t h => ?_⟩
  have ht : t.tape.isSome = true := (run_keeps_tape_loaded h).trans hs
  obtain ⟨_, hprogram, _⟩ := run_keeps_supply h
  exact ⟨ht, hprogram ▸ State.pc_lt ht⟩

end Sys2Proof.Machine

/-! Evaluator reads: the tokens that are no reads drive the bus with 0 (spec rule R114). -/

namespace Sys2Proof.Machine

/-- A token whose `eval` is 0 is evaluated without effect: 0 is the least bus value (rules R114, R132). -/
theorem exec_of_evalToken_eq_zero {i : Instr} {s : State} (hp : s.phase = .evaluate)
    (h : Reference.evalToken s i = 0) : exec i s = .next s := by
  rw [exec_eq_evalToken hp, h, drive_zero]

/-- Settles O9: the spec's `eval` gives each of the fourteen tokens 0, and driving 0 changes nothing. -/
theorem otherTokensOfferZero : Obligations.OtherTokensOfferZero := by
  intro s hp i hi
  have hzero : Reference.evalToken s i = 0 := by fin_cases hi <;> rfl
  exact exec_of_evalToken_eq_zero hp hzero

end Sys2Proof.Machine

/-! Bus: the tokens of an instruction, evaluated one after the other, leave the spec's `bus(S, I)`
(spec/42_bus.md). First `bus(S, I)` as a maximum, then the first half of a cycle, then the statement. -/

namespace Sys2Proof.Machine

/-! The spec's `bus(S, I)` is the least upper bound of the tokens' values and 0 (rules R130, R134). -/

section
variable (s : State) (i : Instruction)

@[simp] theorem busValue_nil : Reference.busValue s [] = 0 := rfl

@[simp] theorem busValue_cons (t : Instr) :
    Reference.busValue s (t :: i) = max (Reference.evalToken s t).toNat (Reference.busValue s i) := rfl

theorem busValue_le_iff (n : Nat) :
    Reference.busValue s i ≤ n ↔ ∀ t ∈ i, (Reference.evalToken s t).toNat ≤ n := by
  induction i with
  | nil => simp
  | cons t i ih => simp [ih]

theorem evalToken_le_busValue : ∀ t ∈ i, (Reference.evalToken s t).toNat ≤ Reference.busValue s i :=
  (busValue_le_iff s i _).1 le_rfl

/-- A positive bus value is some token's. -/
theorem busValue_attained :
    Reference.busValue s i = 0 ∨ ∃ t ∈ i, (Reference.evalToken s t).toNat = Reference.busValue s i := by
  induction i with
  | nil => exact .inl rfl
  | cons t i ih =>
    rw [busValue_cons]
    obtain hmax | hmax := max_choice (Reference.evalToken s t).toNat (Reference.busValue s i) <;> rw [hmax]
    · exact .inr ⟨t, List.mem_cons_self, rfl⟩
    · exact ih.imp_right fun ⟨u, hu, hv⟩ => ⟨u, List.mem_cons_of_mem t hu, hv⟩

/-- The maximum of 4-bit values has 4 bits (rule R130). -/
@[simp] theorem ofNat_busValue_toNat :
    (BitVec.ofNat 4 (Reference.busValue s i)).toNat = Reference.busValue s i := by
  have hle : Reference.busValue s i ≤ 15 :=
    (busValue_le_iff s i 15).2 fun t _ => Nat.le_of_lt_succ (toNat_lt_sixteen _)
  rw [BitVec.toNat_ofNat]
  omega

theorem ofNat_busValue_cons (t : Instr) : BitVec.ofNat 4 (Reference.busValue s (t :: i)) =
    busMax (Reference.evalToken s t) (BitVec.ofNat 4 (Reference.busValue s i)) := by
  apply BitVec.eq_of_toNat_eq
  rw [busMax_toNat, ofNat_busValue_toNat, ofNat_busValue_toNat, busValue_cons]

end

/-- Only which tokens an instruction has counts for its bus value, not their order or number (rule R133). -/
theorem busValue_eq_of_same_tokens (s : State) {i j : Instruction} (h : ∀ t, t ∈ i ↔ t ∈ j) :
    Reference.busValue s i = Reference.busValue s j :=
  eq_of_forall_ge_iff fun n => by simp only [busValue_le_iff, h]

/-- The bus value is a function of the register file and the input vector (rules R32, R130). -/
theorem busValue_congr {s s' : State} (hx : s.x = s'.x) (hg : s.g = s'.g) (i : Instruction) :
    Reference.busValue s i = Reference.busValue s' i := by
  simp only [Reference.busValue, evalToken_congr hx hg]

/-! The first half of a cycle (rule R180 step 1). -/

/-- Two values driven one after the other are their maximum driven once (rule R133). -/
theorem drive_drive (s : State) (v w : Nibble) : (s.drive v).drive w = s.drive (busMax v w) := by
  simp only [State.drive, busMax_assoc]

/-- In the first half of a cycle an instruction's tokens drive the bus with the spec's `bus(S, I)`: no
token sees what the tokens before it drove, and the maxima join. -/
theorem runTokens_eq_busValue {s : State} (hp : s.phase = .evaluate) (i : Instruction) :
    runTokens i s = .next (s.drive (BitVec.ofNat 4 (Reference.busValue s i))) := by
  induction i generalizing s with
  | nil => exact congrArg _ (drive_zero s).symm
  | cons t i ih =>
    have hbus : Reference.busValue (s.drive (Reference.evalToken s t)) i = Reference.busValue s i :=
      busValue_congr rfl rfl i
    refine runTokens_cons_eq_next.2 ⟨_, exec_eq_evalToken hp t, ?_⟩
    rw [ih (s := s.drive _) hp, hbus, drive_drive, ofNat_busValue_cons]

/-- From the open cycle, whose bus is 0, the tokens leave exactly the spec's `bus(S, I)`. -/
theorem runTokens_openCycle (s : State) (i : Instruction) : runTokens i s.openCycle =
    .next { s.openCycle with bus := BitVec.ofNat 4 (Reference.busValue s i) } := by
  rw [runTokens_eq_busValue rfl, busValue_congr (s := s.openCycle) (s' := s) rfl rfl, State.drive,
    State.openCycle_bus, busMax_comm, busMax_zero]

/-- Settles O15: the bus is the spec's `bus(S, I)`, the least upper bound of the values of the tokens the
instruction has. -/
theorem busIsTheNumericMaximum : Obligations.BusIsTheNumericMaximum := by
  intro s i
  refine ⟨⟨_, runTokens_openCycle s i, fun t ht => ?_, ?_⟩, fun j h => ?_⟩
  · simpa only [ofNat_busValue_toNat] using evalToken_le_busValue s i t ht
  · refine (busValue_attained s i).imp (congrArg _) fun ⟨t, ht, hv⟩ => ⟨t, ht, ?_⟩
    exact BitVec.eq_of_toNat_eq (hv.trans (ofNat_busValue_toNat s i).symm)
  · rw [runTokens_openCycle, runTokens_openCycle, busValue_eq_of_same_tokens s h]

end Sys2Proof.Machine

/-! Latch control: a window that no `E` token closes (spec/44_latch_control.md R166). First what an open
window freezes, for a token up to a step, then how long a run can go on, then the statement. -/

namespace Sys2Proof.Machine

/-! More of the end of a cycle: what follows a cycle, beside the frame above. -/

@[simp] theorem finishCycle_x (before s : State) : (finishCycle before s).x = s.x := by
  rw [finishCycle_frame]

@[simp] theorem finishCycle_n (before s : State) : (finishCycle before s).n = s.n + 1 := by
  rw [finishCycle_frame]

@[simp] theorem finishCycle_status (before s : State) : (finishCycle before s).status = s.status := by
  rw [finishCycle_frame]

theorem clockCycle_n {i : Instruction} {s t : State} (h : clockCycle i s = .next t) : t.n = s.n := by
  rw [clockCycle_frame h, State.advance_n]

theorem clockCycle_status {i : Instruction} {s t : State} (h : clockCycle i s = .next t) :
    t.status = s.status := by
  rw [clockCycle_frame h, State.advance_status]

/-! An open window freezes the registers (rules R142, R143). -/

/-- Either latch opens the window (rule R12). -/
theorem gate_of_latch {s : State} {k : Latch} (hk : s.latch.get k = true) : s.gate = true := by
  cases k <;> simp [State.gate, hk]

/-- Inside a window a token of the mutable class is skipped, and no other token writes a register. -/
theorem applyToken_x_of_gate {s : State} (hg : s.gate = true) (b : Nibble) (i : Instr) :
    (Reference.applyToken b s i).x = s.x := by
  have hopen : Reference.gateOpen s = true := hg
  rw [Reference.applyToken, hopen, Bool.true_and]
  split
  · rfl
  · rename_i hmutable
    cases i with
    | w1 | w2 | w3 | w4 | w5 | w6 | w7 | w8 | halt => exact absurd rfl hmutable
    | j1 | j2 => rw [Reference.dispatchToken]; split <;> rfl
    | _ => rfl

theorem exec_x_of_gate {i : Instr} {s t : State} (hg : s.gate = true) (h : exec i s = .next t) :
    t.x = s.x := by
  cases hp : s.phase with
  | evaluate => rw [exec_evaluate_frame hp h]
  | apply =>
    rw [exec_eq_applyToken hp] at h
    cases h
    exact applyToken_x_of_gate hg _ i

/-- A latch is cleared by its own `E` token only (rules R163, R164). -/
theorem exec_keeps_latch_set {i : Instr} {s t : State} {k : Latch} (hk : s.latch.get k = true)
    (hi : i ≠ clearToken k) (h : exec i s = .next t) : t.latch.get k = true := by
  simp [exec_latch_get h, hi, hk]

/-- The two states have the same registers, and the latch is set in the second: what becomes of a state
with the latch set while no `E` token of it runs. -/
def FrozenBy (k : Latch) (s t : State) : Prop := t.x = s.x ∧ t.latch.get k = true

theorem runTokens_freezes {is : Instruction} {s t : State} {k : Latch} (hk : s.latch.get k = true)
    (hclear : clearToken k ∉ is) (h : runTokens is s = .next t) : FrozenBy k s t := by
  induction is generalizing s with
  | nil => cases h; exact ⟨rfl, hk⟩
  | cons i is ih =>
    obtain ⟨m, hm, ht⟩ := runTokens_cons_eq_next.1 h
    rw [List.mem_cons, not_or] at hclear
    obtain ⟨hne, hclear⟩ := hclear
    obtain ⟨hx, hk'⟩ := ih (exec_keeps_latch_set hk (Ne.symm hne) hm) hclear ht
    exact ⟨hx.trans (exec_x_of_gate (gate_of_latch hk) hm), hk'⟩

theorem clockCycle_freezes {i : Instruction} {s t : State} {k : Latch} (hk : s.latch.get k = true)
    (hclear : clearToken k ∉ i) (h : clockCycle i s = .next t) : FrozenBy k s t := by
  obtain ⟨e, a, he, ha, rfl⟩ := clockCycle_eq_next.1 h
  obtain ⟨hxe, hke⟩ := runTokens_freezes (s := s.openCycle) hk hclear he
  obtain ⟨hxa, hka⟩ := runTokens_freezes (s := e.enterApply) hke hclear ha
  exact ⟨hxa.trans hxe, hka⟩

/-- A step from a state with the latch set, on an instruction without its `E` token, changes no register
and leaves the latch set (rules R142, R143). -/
theorem step_freezes {i : Instruction} {s t : State} {k : Latch} (hf : s.fetch = some i)
    (hk : s.latch.get k = true) (hclear : clearToken k ∉ i) (h : step s = .next t) :
    FrozenBy k s t := by
  obtain rfl | ⟨why, rfl⟩ | ⟨j, c, hj, hc, rfl⟩ := step_outcomes h
  · exact ⟨rfl, hk⟩
  · exact ⟨rfl, hk⟩
  · obtain rfl : i = j := Option.some.inj (hf.symm.trans hj)
    simpa only [FrozenBy, finishCycle_x, finishCycle_latch] using clockCycle_freezes hk hclear hc

/-- No halt is taken inside a window, so no step ends the run with that reason (rule R191). -/
theorem step_not_halted_of_gate {s t : State} (hg : s.gate = true)
    (hs : s.status ≠ .ended .halted) (h : step s = .next t) : t.status ≠ .ended .halted := by
  cases hr : s.status with
  | ended why => rw [step_of_ended hr] at h; cases h; exact hs
  | running =>
    cases hf : s.fetch with
    | none => rw [step_of_no_tape (fetch_eq_none.1 hf)] at h; cases h; exact hs
    | some i =>
      obtain ⟨hhalt, _⟩ | ⟨_, _, rfl⟩ | ⟨_, _, c, hc, rfl⟩ := step_cases hr hf h
      · simp [haltNow, hg] at hhalt
      · simp
      · rwa [finishCycle_status, clockCycle_status hc]

/-! A window with no `E` token on the tape (rule R166). -/

/-- A fetched instruction is one of the tape's (rule R25). -/
theorem not_mem_of_tapeLacks {s : State} {i : Instruction} {t : Instr} (hlacks : s.tapeLacks t = true)
    (hf : s.fetch = some i) : t ∉ i := by
  obtain ⟨tape, htape, rfl⟩ := Option.map_eq_some_iff.1 hf
  have hmem : tape.current ∈ s.program := by simp [State.program, htape, Tape.current]
  simpa using List.all_eq_true.1 hlacks _ hmem

/-- The latch is set and no instruction of the tape clears it. -/
def NeverCloses (k : Latch) (s : State) : Prop :=
  s.latch.get k = true ∧ s.tapeLacks (clearToken k) = true

theorem NeverCloses.gate {k : Latch} {s : State} (hw : NeverCloses k s) : s.gate = true :=
  gate_of_latch hw.1

/-- The window stays open for good, with the registers frozen, whatever step is taken. -/
theorem step_of_neverCloses {s t : State} {k : Latch} (hw : NeverCloses k s) (h : step s = .next t) :
    t.x = s.x ∧ NeverCloses k t := by
  obtain ⟨hk, hlacks⟩ := hw
  obtain ⟨_, hprogram, _⟩ := step_keeps_supply h
  have hlacks' : t.tapeLacks (clearToken k) = true := by rwa [State.tapeLacks, hprogram]
  cases hf : s.fetch with
  | none => rw [step_of_no_tape (fetch_eq_none.1 hf)] at h; cases h; exact ⟨rfl, hk, hlacks⟩
  | some i =>
    obtain ⟨hx, hk'⟩ := step_freezes hf hk (not_mem_of_tapeLacks hlacks hf) h
    exact ⟨hx, hk', hlacks'⟩

theorem run_of_neverCloses {j : Nat} {s t : State} {k : Latch} (hw : NeverCloses k s)
    (hs : s.status ≠ .ended .halted) (h : run j s = .next t) :
    t.x = s.x ∧ t.status ≠ .ended .halted := by
  refine (run_keeps (fun u => NeverCloses k u ∧ u.x = s.x ∧ u.status ≠ .ended .halted)
    (fun u v hu huv => ?_) j s t ⟨hw, rfl, hs⟩ h).2
  obtain ⟨hwu, hxu, hsu⟩ := hu
  obtain ⟨hxv, hwv⟩ := step_of_neverCloses hwu huv
  exact ⟨hwv, hxv.trans hxu, step_not_halted_of_gate hwu.gate hsu huv⟩

/-! How long a run goes on (rules R190, R193). -/

theorem clockCycle_answers (i : Instruction) (s : State) : ∃ t, clockCycle i s = .next t := by
  obtain ⟨e, he⟩ := runTokens_answers i s.openCycle
  obtain ⟨a, ha⟩ := runTokens_answers i e.enterApply
  exact ⟨_, clockCycle_eq_next.2 ⟨e, a, he, ha, rfl⟩⟩

/-- Every step answers a next state (rule R210). -/
theorem step_answers (s : State) : ∃ t, step s = .next t := by
  cases hr : s.status with
  | ended why => exact ⟨s, step_of_ended hr⟩
  | running =>
    cases hf : s.fetch with
    | none => exact ⟨s, step_of_no_tape (fetch_eq_none.1 hf)⟩
    | some i =>
      obtain ⟨c, hc⟩ := clockCycle_answers i s
      simp only [step, runLoopStep, hr, hf, runLoopTurn, hc, andThen]
      split
      · exact ⟨_, rfl⟩
      · split <;> exact ⟨_, rfl⟩

theorem run_answers (k : Nat) (s : State) : ∃ t, run k s = .next t := by
  induction k generalizing s with
  | zero => exact ⟨s, rfl⟩
  | succ k ih =>
    obtain ⟨m, hm⟩ := step_answers s
    obtain ⟨t, ht⟩ := ih m
    exact ⟨t, by rw [run_succ, hm, andThen, ht]⟩

/-- A run that has ended does not go on (rule R202). -/
theorem run_keeps_ended {k : Nat} {s t : State} (hs : s.status ≠ .running) (h : run k s = .next t) :
    t.status ≠ .running := by
  refine run_keeps (fun u => u.status ≠ .running) (fun u v hu huv => ?_) k s t hs h
  cases hr : u.status with
  | running => exact absurd hr hu
  | ended why => rw [step_of_ended hr] at huv; cases huv; exact hu

/-- Of a constructed machine, a step leaves the run ended or counts a cycle under the cap (rules R190,
R193). -/
theorem step_ends_or_counts {s t : State} (htape : s.tape.isSome = true) (h : step s = .next t) :
    t.status ≠ .running ∨ (s.n < s.cap ∧ t.n = s.n + 1) := by
  cases hr : s.status with
  | ended why => rw [step_of_ended hr] at h; cases h; simp [hr]
  | running =>
    cases hf : s.fetch with
    | none => simp [fetch_eq_none.1 hf] at htape
    | some i =>
      obtain ⟨_, rfl⟩ | ⟨_, _, rfl⟩ | ⟨_, hlt, c, hc, rfl⟩ := step_cases hr hf h
      · simp
      · simp
      · exact .inr ⟨hlt, by rw [finishCycle_n, clockCycle_n hc]⟩

/-- From a state of a constructed machine with at most `k` cycles left under the cap, the run has ended
after `k` steps and one more (rule R193; logs 8, 14). -/
theorem run_has_ended {k : Nat} {s t : State} (htape : s.tape.isSome = true) (hk : s.cap - s.n ≤ k)
    (h : run (k + 1) s = .next t) : t.status ≠ .running := by
  induction k generalizing s with
  | zero =>
    obtain ⟨m, hm, ht⟩ := andThen_eq_next.1 (run_succ 0 s ▸ h)
    cases ht
    obtain hended | ⟨hlt, _⟩ := step_ends_or_counts htape hm
    · exact hended
    · omega
  | succ k ih =>
    obtain ⟨m, hm, ht⟩ := andThen_eq_next.1 (run_succ (k + 1) s ▸ h)
    obtain hended | ⟨hlt, hn⟩ := step_ends_or_counts htape hm
    · exact run_keeps_ended hended ht
    · obtain ⟨_, _, hcap⟩ := step_keeps_supply hm
      exact ih ((step_keeps_tape_loaded hm).trans htape) (by omega) ht

/-- Settles O37: the window never closes, so no halt is taken and nothing is written; the run ends all the
same, and the cap is the one reason left. -/
theorem unclosedWindowRunsToTheCap : Obligations.UnclosedWindowRunsToTheCap := by
  intro s hr htape hopen
  obtain ⟨k, hw⟩ : ∃ k, NeverCloses k s := hopen.elim (⟨.l1, ·⟩) (⟨.l2, ·⟩)
  have hs : s.status ≠ .ended .halted := by simp [hr]
  refine ⟨fun _ _ h => run_of_neverCloses hw hs h, ?_⟩
  obtain ⟨t, ht⟩ := run_answers (s.cap - s.n + 1) s
  obtain ⟨hx, hnot⟩ := run_of_neverCloses hw hs ht
  have hended : t.status ≠ .running := run_has_ended htape le_rfl ht
  refine ⟨t, ht, ?_, hx⟩
  match hstatus : t.status with
  | .running => exact absurd hstatus hended
  | .ended .halted => exact absurd hstatus hnot
  | .ended .cap => rfl

end Sys2Proof.Machine

/-! Clock driver: a cycle is the spec's step (spec/46_clock_driver.md). First the Write Applier's fold and
the whole cycle against the spec's pseudocode, then the step that runs a cycle, then the statements. -/

namespace Sys2Proof.Machine

/-! The second half of a cycle (rule R180 step 2): the model threads its scratch pair through the fold,
and the spec's `apply` neither reads nor writes it. -/

/-- The state with the scratch pair as given (rule R39; log 3). -/
def State.withScratch (s : State) (b : Nibble) (p : Phase) : State := { s with bus := b, phase := p }

@[simp] theorem State.withScratch_advance (s : State) (b : Nibble) (p : Phase) :
    (s.withScratch b p).advance = s.advance := rfl

theorem applyToken_withScratch (b v : Nibble) (p : Phase) (s : State) (i : Instr) :
    Reference.applyToken b (s.withScratch v p) i = (Reference.applyToken b s i).withScratch v p := by
  have hgate : Reference.gateOpen (s.withScratch v p) = Reference.gateOpen s := rfl
  rw [Reference.applyToken, Reference.applyToken, hgate]
  split
  · rfl
  · cases i with
    | j1 | j2 => rw [Reference.dispatchToken, Reference.dispatchToken]; split <;> rfl
    | _ => rfl

/-- In the second half of a cycle an instruction's tokens are the left fold of the spec's `apply` with the
one bus value (rule R182). -/
theorem runTokens_eq_foldl (b : Nibble) (s : State) (i : Instruction) :
    runTokens i (s.withScratch b .apply) =
      .next ((i.foldl (Reference.applyToken b) s).withScratch b .apply) := by
  induction i generalizing s with
  | nil => rfl
  | cons t i ih =>
    have hexec : exec t (s.withScratch b .apply) =
        .next ((Reference.applyToken b s t).withScratch b .apply) :=
      (exec_eq_applyToken rfl t).trans (congrArg _ (applyToken_withScratch b b .apply s t))
    exact runTokens_cons_eq_next.2 ⟨_, hexec, ih _⟩

/-- A clock cycle is the spec's, in every state: steps 1 and 2 of rule R180, then the position. -/
theorem clockCycle_eq_reference (i : Instruction) (s : State) :
    clockCycle i s = .next (Reference.cycle i s).advance :=
  clockCycle_eq_next.2 ⟨_, _, runTokens_openCycle s i, runTokens_eq_foldl _ s i,
    ((Reference.cycle i s).withScratch_advance _ _).symm⟩

/-! The step that runs a cycle (rules R180, R190). -/

/-- The spec's cycle on registers and latches, then the position: all that a cycle changes. -/
def State.afterCycle (i : Instruction) (s : State) : State :=
  { s.advance with x := (Reference.cycle i s).x, latch := (Reference.cycle i s).latch }

/-- Where a cycle runs, the step is the spec's cycle with its notification and count. -/
theorem step_of_runsCycle {s : State} {i : Instruction} (h : s.runsCycle i) :
    step s = .next (finishCycle s (s.afterCycle i)) := by
  obtain ⟨hr, hf, hhalt, hcap⟩ := h
  have hcycle : clockCycle i s = .next (s.afterCycle i) := by
    rw [clockCycle_eq_reference]
    exact congrArg _ (clockCycle_frame (clockCycle_eq_reference i s))
  simp [step, runLoopStep, hr, hf, runLoopTurn, hhalt, hcap, hcycle, andThen]

@[simp] theorem finishCycle_pc (before s : State) : (finishCycle before s).pc = s.pc := by
  rw [finishCycle_frame]; rfl

theorem tape_isSome_of_fetch {s : State} {i : Instruction} (hf : s.fetch = some i) :
    s.tape.isSome = true := by
  obtain ⟨tape, htape, _⟩ := Option.map_eq_some_iff.1 hf
  exact Option.isSome_of_eq_some htape

/-- Of a constructed machine, a step after which the run still goes on has run a cycle. -/
theorem runsCycle_of_step_running {s t : State} (htape : s.tape.isSome = true)
    (h : step s = .next t) (ht : t.status = .running) : ∃ i, s.runsCycle i := by
  cases hr : s.status with
  | ended why => rw [step_of_ended hr] at h; cases h; simp [hr] at ht
  | running =>
    cases hf : s.fetch with
    | none => simp [fetch_eq_none.1 hf] at htape
    | some i =>
      obtain ⟨_, rfl⟩ | ⟨_, _, rfl⟩ | ⟨hhalt, hcap, _⟩ := step_cases hr hf h
      · simp at ht
      · simp at ht
      · exact ⟨i, hr, hf, hhalt, hcap⟩

/-! The statements of the family. -/

/-- Settles O21: the model's two-half cycle is the spec's pseudocode, and what the Run Loop does after it
touches neither registers nor latches nor tape. -/
theorem cycleIsTheSpecsStep : Obligations.CycleIsTheSpecsStep := by
  intro s i h
  have ⟨_, hf, _⟩ := h
  refine ⟨_, step_of_runsCycle h, finishCycle_x _ _, finishCycle_latch _ _, ?_, ?_,
    finishCycle_g _ _, finishCycle_cap _ _⟩
  · exact (finishCycle_pc _ _).trans (State.advance_pc (tape_isSome_of_fetch hf))
  · exact (finishCycle_program _ _).trans s.advance_program

/-- Settles O23: the position and the tape of the spec's step. -/
theorem positionAdvancesEveryCycle : Obligations.PositionAdvancesEveryCycle := by
  intro s i h
  obtain ⟨t, ht, _, _, hpc, hprogram, _, _⟩ := cycleIsTheSpecsStep s i h
  exact ⟨t, ht, hpc, hprogram⟩

/-- Settles O29: no token stops a cycle, and every turn of the Run Loop answers. -/
theorem stepAndCycleAreTotal : Obligations.StepAndCycleAreTotal :=
  ⟨clockCycle_answers, step_answers⟩

/-- A step after which the run still goes on counts one cycle and moves the position on by one. -/
theorem step_counts_and_advances {s t : State} (htape : s.tape.isSome = true)
    (h : step s = .next t) (ht : t.status = .running) :
    t.n = s.n + 1 ∧ t.pc = (s.pc + 1) % s.program.length := by
  obtain ⟨i, hi⟩ := runsCycle_of_step_running htape h ht
  rw [step_of_runsCycle hi] at h
  cases h
  exact ⟨finishCycle_n _ _, (finishCycle_pc _ _).trans (State.advance_pc htape)⟩

/-- `k` steps after which the run still goes on count `k` cycles and move the position on by `k`, from
any position and count. -/
theorem run_counts_and_advances {k : Nat} {s t : State} (htape : s.tape.isSome = true)
    (h : run k s = .next t) (ht : t.status = .running) :
    t.n = s.n + k ∧ t.pc = (s.pc + k) % s.program.length := by
  induction k generalizing s with
  | zero => cases h; exact ⟨rfl, (Nat.mod_eq_of_lt (State.pc_lt htape)).symm⟩
  | succ k ih =>
    obtain ⟨m, hm, hrun⟩ := andThen_eq_next.1 (run_succ k s ▸ h)
    have hmr : m.status = .running := by_contra fun hended => run_keeps_ended hended hrun ht
    obtain ⟨hn, hpc⟩ := step_counts_and_advances htape hm hmr
    obtain ⟨_, hprogram, _⟩ := step_keeps_supply hm
    obtain ⟨hn', hpc'⟩ := ih ((step_keeps_tape_loaded hm).trans htape) hrun
    refine ⟨by omega, ?_⟩
    rw [hpc', hprogram, hpc, Nat.mod_add_mod, Nat.add_right_comm, Nat.add_assoc]

/-- Settles O35: from position 0 and count 0, the position after `k` cycles is `k mod LEN`. -/
theorem cycleKRunsInstructionKModLen : Obligations.CycleKRunsInstructionKModLen := by
  intro k s t htape hpc hn h ht
  simpa only [hpc, hn, Nat.zero_add] using run_counts_and_advances htape h ht

end Sys2Proof.Machine

/-! Run Loop: when a run halts, and how far it counts (spec/47_run_loop.md). First the halt test and the
count of a step and of a run, then the statements. -/

namespace Sys2Proof.Machine

/-- The halt test in the spec's words: the instruction is exactly `[HALT]` and both latches are 0 (rule
R191). -/
theorem haltNow_iff {i : Instruction} {s : State} :
    haltNow i s = true ↔ i = [.halt] ∧ s.latch.l1 = false ∧ s.latch.l2 = false := by
  simp [haltNow, State.gate_eq]

/-- A step leaves the count alone or, under the cap, counts one cycle (rules R190, R193). -/
theorem step_n {s t : State} (h : step s = .next t) :
    t.n = s.n ∨ (s.n < s.cap ∧ t.n = s.n + 1) := by
  cases hr : s.status with
  | ended why => rw [step_of_ended hr] at h; cases h; exact .inl rfl
  | running =>
    cases hf : s.fetch with
    | none => rw [step_of_no_tape (fetch_eq_none.1 hf)] at h; cases h; exact .inl rfl
    | some i =>
      obtain ⟨_, rfl⟩ | ⟨_, _, rfl⟩ | ⟨_, hlt, c, hc, rfl⟩ := step_cases hr hf h
      · exact .inl rfl
      · exact .inl rfl
      · exact .inr ⟨hlt, by rw [finishCycle_n, clockCycle_n hc]⟩

/-- No run counts past the cap; a count that is past it already stays where it is (rule R193). -/
theorem run_n_le {k : Nat} {s t : State} (h : run k s = .next t) : t.n ≤ max s.n s.cap := by
  refine (run_keeps (fun u => u.cap = s.cap ∧ u.n ≤ max s.n s.cap) (fun u v hu huv => ?_) k s t
    ⟨rfl, le_max_left _ _⟩ h).2
  obtain ⟨hcap, hle⟩ := hu
  obtain ⟨_, _, hcap'⟩ := step_keeps_supply huv
  refine ⟨hcap'.trans hcap, ?_⟩
  obtain hn | ⟨hlt, hn⟩ := step_n huv <;> omega

/-- Settles O26: of the three things a turn of the Run Loop can do, the halt is taken exactly on the halt
condition, and the cycle is what is left under the cap. -/
theorem haltsExactlyOnTheHaltCondition : Obligations.HaltsExactlyOnTheHaltCondition := by
  intro s i hr hf
  obtain ⟨t, ht⟩ := step_answers s
  refine ⟨t, ht, ?_⟩
  rw [← haltNow_iff]
  obtain ⟨hhalt, rfl⟩ | ⟨hhalt, hcap, rfl⟩ | ⟨hhalt, _, c, hc, rfl⟩ := step_cases hr hf ht
  · simp [hhalt]
  · simp [hhalt, hcap]
  · have hgoes : c.status = .running := (clockCycle_status hc).trans hr
    simp [hhalt, hgoes, clockCycle_n hc]

/-- Settles O38: every run answers, has ended by then, and counts no further than the cap. -/
theorem everyRunEndsWithinItsCap : Obligations.EveryRunEndsWithinItsCap := by
  intro s htape
  obtain ⟨t, ht⟩ := run_answers (s.cap - s.n + 1) s
  exact ⟨t, ht, run_has_ended htape le_rfl ht, run_n_le ht⟩

end Sys2Proof.Machine

/-! Exceptions: nothing the machine does faults or refuses (spec/60_exceptions.md). -/

namespace Sys2Proof.Machine

/-- An outcome that answers a next state is neither of the two that stop. -/
theorem never_stops_of_answers {o : Outcome} (h : ∃ t, o = .next t) :
    (∀ r, o ≠ .fault r) ∧ ∀ r, o ≠ .refused r := by
  obtain ⟨t, rfl⟩ := h
  exact ⟨nofun, nofun⟩

/-- A state that one step leaves as it is, every run leaves as it is. -/
theorem run_of_step_fixed {s : State} (h : step s = .next s) (k : Nat) : run k s = .next s := by
  induction k with
  | zero => rfl
  | succ k ih => rw [run_succ, h, andThen, ih]

/-- Settles O30: every token and every step answers a next state, and before construction a step answers
the state it was given. -/
theorem tokensAndStepsNeverStop : Obligations.TokensAndStepsNeverStop := by
  refine ⟨fun i s => never_stops_of_answers (exec_answers i s), fun s => ?_⟩
  obtain ⟨hfault, hrefused⟩ := never_stops_of_answers (step_answers s)
  exact ⟨hfault, hrefused, fun htape => run_of_step_fixed (step_of_no_tape htape)⟩

end Sys2Proof.Machine

/-! Encoding: codes and program text (spec/30_encoding.md). First the codes and their inverse, then the
program line, then the statements. -/

namespace Sys2Proof

/-! The per-token family as one statement over all tokens (rules R73, R80, R81). -/

theorem encodingStatement (i : Instr) : Laws.Encoding.Statement i :=
  match i with
  | .r1 => Laws.Encoding.r1 | .r2 => Laws.Encoding.r2 | .r3 => Laws.Encoding.r3
  | .r4 => Laws.Encoding.r4 | .r5 => Laws.Encoding.r5 | .r6 => Laws.Encoding.r6
  | .r7 => Laws.Encoding.r7 | .r8 => Laws.Encoding.r8 | .w1 => Laws.Encoding.w1
  | .w2 => Laws.Encoding.w2 | .w3 => Laws.Encoding.w3 | .w4 => Laws.Encoding.w4
  | .w5 => Laws.Encoding.w5 | .w6 => Laws.Encoding.w6 | .w7 => Laws.Encoding.w7
  | .w8 => Laws.Encoding.w8 | .g1 => Laws.Encoding.g1 | .g2 => Laws.Encoding.g2
  | .g3 => Laws.Encoding.g3 | .g4 => Laws.Encoding.g4 | .g5 => Laws.Encoding.g5
  | .add => Laws.Encoding.add | .sub => Laws.Encoding.sub | .lt => Laws.Encoding.lt
  | .gt => Laws.Encoding.gt | .eq => Laws.Encoding.eq | .overflow => Laws.Encoding.overflow
  | .j1 => Laws.Encoding.j1 | .j2 => Laws.Encoding.j2 | .e1 => Laws.Encoding.e1
  | .e2 => Laws.Encoding.e2 | .halt => Laws.Encoding.halt | .unknown => Laws.Encoding.unknown

@[simp] theorem decodeCode_encode (i : Instr) : decodeCode (encode i) = i :=
  let ⟨_, hcode, _⟩ := encodingStatement i; hcode

@[simp] theorem parseToken_spelling (i : Instr) : parseToken (spelling i) = i :=
  let ⟨_, _, htext⟩ := encodingStatement i; htext

@[simp] theorem decodeInstruction_encodeInstruction (i : Instruction) :
    decodeInstruction (encodeInstruction i) = i := by
  induction i with
  | nil => rfl
  | cons t ts ih => exact congrArg₂ List.cons (decodeCode_encode t) ih

@[simp] theorem length_encodeInstruction (i : Instruction) :
    (encodeInstruction i).length = i.length := List.length_map _

/-- The counted form with the right count reads exactly its own codes off the front (rule R83). -/
theorem decodeCounted_append (cs rest : List Code) :
    decodeCounted cs.length (cs ++ rest) = some (decodeInstruction cs, rest) := by
  simp [decodeCounted]

/-! The program line (rules R79, R85, R87). -/

/-- No token's spelling holds a comma or white space, so both can separate (rule R79). -/
theorem spelling_no_separator (t : Instr) :
    ∀ c ∈ spelling t, c ≠ ',' ∧ isBlankChar c = false := by
  cases t <;> simp [spelling, isBlankChar]

theorem splitCommas_of_no_comma {w : List Char} (h : ∀ c ∈ w, c ≠ ',') : splitCommas w = [w] := by
  induction w with
  | nil => rfl
  | cons c w ih =>
    obtain ⟨hc, hw⟩ := List.forall_mem_cons.1 h
    have hcomma : (c == ',') = false := beq_false_of_ne hc
    simp only [splitCommas, hcomma, ih hw]

/-- A text with no comma and then a comma are the first text between commas. -/
theorem splitCommas_append_comma {w : List Char} (h : ∀ c ∈ w, c ≠ ',') (rest : List Char) :
    splitCommas (w ++ ',' :: rest) = w :: splitCommas rest := by
  induction w with
  | nil => simp [splitCommas]
  | cons c w ih =>
    obtain ⟨hc, hw⟩ := List.forall_mem_cons.1 h
    have hcomma : (c == ',') = false := beq_false_of_ne hc
    simp only [List.cons_append, splitCommas, hcomma, ih hw]

/-- The texts between the commas of a printed line are the spellings of its tokens. -/
theorem splitCommas_printLine {i : Instruction} (h : i ≠ []) :
    splitCommas (printLine i) = i.map spelling := by
  induction i using printLine.induct with
  | case1 => exact absurd rfl h
  | case2 t => exact splitCommas_of_no_comma fun c hc => (spelling_no_separator t c hc).1
  | case3 t ts hts ih =>
    rw [printLine, splitCommas_append_comma fun c hc => (spelling_no_separator t c hc).1, ih hts,
      List.map_cons]
    exact hts

theorem printLine_no_blank (i : Instruction) : ∀ c ∈ printLine i, isBlankChar c = false := by
  induction i using printLine.induct with
  | case1 => simp [printLine]
  | case2 t => exact fun c hc => (spelling_no_separator t c hc).2
  | case3 t ts hts ih =>
    rw [printLine]
    · simp only [List.forall_mem_append, List.forall_mem_cons]
      exact ⟨fun c hc => (spelling_no_separator t c hc).2, rfl, ih⟩
    · exact hts

/-- A line that does not begin with white space gives the tokens of its first field (rule R85). -/
theorem parseLine_of_head {line : List Char} (h : line.head?.any isBlankChar = false) :
    parseLine line =
      some ((splitCommas (line.takeWhile fun c => !isBlankChar c)).map parseToken) := by
  simp only [parseLine, h, Bool.false_and, Bool.false_eq_true, if_false]

section
variable {w : List Char} (hw : ∀ c ∈ w, isBlankChar c = false)
include hw

/-- A line without white space is one field (rule R85). -/
theorem parseLine_of_field : parseLine w = some ((splitCommas w).map parseToken) := by
  have hhead : w.head?.any isBlankChar = false := by
    cases w with
    | nil => rfl
    | cons c w => exact hw c List.mem_cons_self
  have hfield : w.takeWhile (fun c => !isBlankChar c) = w :=
    List.takeWhile_eq_self_iff.2 fun c hc => by simp [hw c hc]
  rw [parseLine_of_head hhead, hfield]

/-- A space after a field that is not empty begins a comment (rules R79, R85). -/
theorem parseLine_of_field_comment (hne : w ≠ []) (comment : List Char) :
    parseLine (w ++ ' ' :: comment) = parseLine w := by
  have hhead : (w ++ ' ' :: comment).head?.any isBlankChar = false := by
    cases w with
    | nil => exact absurd rfl hne
    | cons c w => exact hw c List.mem_cons_self
  have hfield : (w ++ ' ' :: comment).takeWhile (fun c => !isBlankChar c) = w := by
    rw [List.takeWhile_append_of_pos fun c hc => by simp [hw c hc]]
    simp [isBlankChar]
  rw [parseLine_of_field hw, parseLine_of_head hhead, hfield]

end

/-! The statements of the family. -/

/-- Settles O4: token by token along the list, then the counted form of the list's own length. -/
theorem codedInstructionsRoundTrip : Obligations.CodedInstructionsRoundTrip := by
  intro i rest
  refine ⟨decodeInstruction_encodeInstruction i, ?_⟩
  simpa using decodeCounted_append (encodeInstruction i) rest

/-- Settles O5: a printed line is one field, whose texts between commas are the spellings. -/
theorem programLinesRoundTrip : Obligations.ProgramLinesRoundTrip := by
  intro i hi
  have hline : parseLine (printLine i) = some i := by
    rw [parseLine_of_field (printLine_no_blank i), splitCommas_printLine hi]
    simp [Function.comp_def]
  exact ⟨hline, fun comment hne =>
    (parseLine_of_field_comment (printLine_no_blank i) hne comment).trans hline⟩

/-- Settles O1, by running the decoder on the eleven codes. -/
theorem sampleWordsDecode : Obligations.SampleWordsDecode := by
  unfold Obligations.SampleWordsDecode
  decide

/-- Settles O2, by running the rows on each of the 64 codes. -/
theorem opcodeRowsPartitionTheCodes : Obligations.OpcodeRowsPartitionTheCodes := by
  unfold Obligations.OpcodeRowsPartitionTheCodes
  decide

/-- Settles O3, by running decoder and encoder on each of the 64 codes. -/
theorem encodeAfterDecodeIsCanonical : Obligations.EncodeAfterDecodeIsCanonical := by
  unfold Obligations.EncodeAfterDecodeIsCanonical
  decide

end Sys2Proof

/-! Token effects: what each token does in either half of a cycle (spec/40 to 45). First a token's value
on the bus and the four kinds of tokens in the Write Applier, then the statements. -/

namespace Sys2Proof.Machine

/-! The first half of a cycle: a token's value in the naturals (rules R100, R130). -/

theorem busMax_eq (a b : Nibble) : busMax a b = BitVec.ofNat 4 (max a.toNat b.toNat) := by
  apply BitVec.eq_of_toNat_eq
  have ha := toNat_lt_sixteen a
  have hb := toNat_lt_sixteen b
  rw [busMax_toNat, BitVec.toNat_ofNat]
  omega

/-- A token of value `v` raises the bus to the maximum of the bus and `v`, and changes nothing else. -/
theorem exec_offers {i : Instr} {s : State} {v : Nat} (hp : s.phase = .evaluate)
    (hv : (Reference.evalToken s i).toNat = v) :
    exec i s = .next { s with bus := BitVec.ofNat 4 (max s.bus.toNat v) } := by
  rw [exec_eq_evalToken hp, State.drive, busMax_eq, hv]

/-- From an empty bus a token leaves its value there. -/
theorem exec_bus_of_empty {i : Instr} {s t : State} (hp : s.phase = .evaluate) (hb : s.bus = 0)
    (h : exec i s = .next t) : t.bus = Reference.evalToken s i := by
  rw [exec_eq_evalToken hp] at h
  cases h
  rw [State.drive_bus, hb, busMax_comm, busMax_zero]

section
variable (s : State)

/-- Rule R121, in the naturals. -/
theorem evalToken_add_toNat :
    (Reference.evalToken s .add).toNat = min (s.x.x1.toNat + s.x.x2.toNat) 15 :=
  clamp15_toNat _

/-- Rule R122, in the naturals, whose difference is floored at 0. -/
theorem evalToken_sub_toNat :
    (Reference.evalToken s .sub).toNat = s.x.x1.toNat - s.x.x2.toNat := by
  rw [Reference.evalToken, ← satSub_eq, satSub_toNat]

/-- Rule R123, in the naturals. -/
theorem evalToken_lt_toNat :
    (Reference.evalToken s .lt).toNat = if s.x.x1.toNat < s.x.x2.toNat then 1 else 0 := by
  rw [Reference.evalToken]; split <;> rfl

/-- Rule R124, in the naturals. -/
theorem evalToken_gt_toNat :
    (Reference.evalToken s .gt).toNat = if s.x.x2.toNat < s.x.x1.toNat then 1 else 0 := by
  rw [Reference.evalToken]; split <;> rfl

/-- Rule R125, in the naturals. -/
theorem evalToken_eq_toNat :
    (Reference.evalToken s .eq).toNat = if s.x.x1.toNat = s.x.x2.toNat then 1 else 0 := by
  simp only [Reference.evalToken, BitVec.toNat_inj]; split <;> rfl

/-- Rule R126, in the naturals. -/
theorem evalToken_overflow_toNat : (Reference.evalToken s .overflow).toNat =
    if 15 < s.x.x1.toNat + s.x.x2.toNat then 1 else 0 := by
  rw [Reference.evalToken]; split <;> rfl

end

/-! The second half of a cycle: a token writes a register, sets or clears a latch, or does nothing
(rule R140). -/

section
variable (b : Nibble) (s : State)

/-- A write token stores the bus value, unless a latch of the threaded state is set (rules R142, R144). -/
theorem applyToken_writeToken (r : Reg) :
    Reference.applyToken b s (Reference.writeToken r) = gated (·.writeReg r b) s := by
  have hclamp : BitVec.ofNat 4 (min b.toNat 15) = b := clamp15_of_nibble b
  cases r <;> simp only [Reference.writeToken, Reference.applyToken, Reference.isMutable,
    Reference.dispatchToken, hclamp, Bool.and_true] <;> rfl

/-- A token outside the mutable class that is no latch token applies nothing (rules R140, R172). -/
theorem applyToken_of_inert {i : Instr} (hm : Reference.isMutable i = false)
    (hl : Reference.isLatchToken i = false) : Reference.applyToken b s i = s := by
  rw [Reference.applyToken, hm, Bool.and_false, if_neg Bool.false_ne_true]
  cases i with
  | w1 | w2 | w3 | w4 | w5 | w6 | w7 | w8 | halt => cases hm
  | j1 | j2 | e1 | e2 => cases hl
  | _ => rfl

/-- `HALT` is of the mutable class, and applies nothing when it is not gated either (rule R170). -/
theorem applyToken_halt : Reference.applyToken b s .halt = s := by
  rw [Reference.applyToken]; split <;> rfl

end

/-- A token is some register's write token, a latch token, or applies nothing in any state. -/
theorem applyToken_cases (i : Instr) :
    (∃ r, i = Reference.writeToken r) ∨ Reference.isLatchToken i = true ∨
      ∀ b s, Reference.applyToken b s i = s := by
  cases i with
  | w1 => exact .inl ⟨.x1, rfl⟩
  | w2 => exact .inl ⟨.x2, rfl⟩
  | w3 => exact .inl ⟨.x3, rfl⟩
  | w4 => exact .inl ⟨.x4, rfl⟩
  | w5 => exact .inl ⟨.x5, rfl⟩
  | w6 => exact .inl ⟨.x6, rfl⟩
  | w7 => exact .inl ⟨.x7, rfl⟩
  | w8 => exact .inl ⟨.x8, rfl⟩
  | j1 | j2 | e1 | e2 => exact .inr (.inl rfl)
  | halt => exact .inr (.inr applyToken_halt)
  | _ => exact .inr (.inr fun b s => applyToken_of_inert b s rfl rfl)

section
variable {s : State} (hp : s.phase = .apply)
include hp

theorem exec_of_inert {i : Instr} (hm : Reference.isMutable i = false)
    (hl : Reference.isLatchToken i = false) : exec i s = .next s := by
  rw [exec_eq_applyToken hp, applyToken_of_inert _ s hm hl]

theorem exec_of_mem_inert {is : List Instr}
    (his : ∀ i ∈ is, Reference.isMutable i = false ∧ Reference.isLatchToken i = false) {i : Instr}
    (hi : i ∈ is) : exec i s = .next s := by
  obtain ⟨hm, hl⟩ := his i hi
  exact exec_of_inert hp hm hl

/-- A token of the mutable class is skipped while a latch is set (rule R142). -/
theorem exec_of_gate {i : Instr} (hg : s.gate = true) (hm : Reference.isMutable i = true) :
    exec i s = .next s := by
  have hopen : Reference.gateOpen s = true := hg
  rw [exec_eq_applyToken hp, Reference.applyToken, hopen, hm]
  rfl

theorem exec_writeToken (hg : s.gate = false) (r : Reg) :
    exec (Reference.writeToken r) s = .next (s.writeReg r s.bus) := by
  rw [exec_eq_applyToken hp, applyToken_writeToken, gated_of_not_gate hg]

theorem exec_setToken (k : Latch) :
    exec (setToken k) s = .next (if 1 ≤ s.bus.toNat then s.setLatch k true else s) := by
  rw [exec_eq_applyToken hp, applyToken_setToken]

theorem exec_clearToken (k : Latch) : exec (clearToken k) s = .next (s.setLatch k false) := by
  rw [exec_eq_applyToken hp, applyToken_clearToken]

/-- In the second half of a cycle an instruction's tokens are the left fold of the spec's `apply` with the
state's own bus (rule R182). -/
theorem runTokens_apply_eq_foldl (i : Instruction) :
    runTokens i s = .next (i.foldl (Reference.applyToken s.bus) s) := by
  induction i generalizing s with
  | nil => rfl
  | cons t i ih =>
    have ht := exec_eq_applyToken hp t
    have hframe := exec_apply_frame hp ht
    have hphase : (Reference.applyToken s.bus s t).phase = .apply := by rw [hframe]; exact hp
    have hbus : (Reference.applyToken s.bus s t).bus = s.bus := by rw [hframe]
    refine runTokens_cons_eq_next.2 ⟨_, ht, ?_⟩
    rw [ih hphase, hbus, List.foldl_cons]

end

/-! The statements of the family. -/

/-- Settles O6: the value of `R<i>` is `x[i]`, and a read token applies nothing. -/
theorem registerReadsOfferTheirRegister : Obligations.RegisterReadsOfferTheirRegister := by
  intro s
  refine ⟨fun hp => ?_, fun hp i hi => ?_⟩
  · exact ⟨exec_offers hp rfl, exec_offers hp rfl, exec_offers hp rfl, exec_offers hp rfl,
      exec_offers hp rfl, exec_offers hp rfl, exec_offers hp rfl, exec_offers hp rfl⟩
  · exact exec_of_mem_inert hp (by decide) hi

/-- Settles O7: the value of `G<i>` is `g[i]`, and a read token applies nothing. -/
theorem inputReadsOfferTheirInput : Obligations.InputReadsOfferTheirInput := by
  intro s
  refine ⟨fun hp => ?_, fun hp i hi => ?_⟩
  · exact ⟨exec_offers hp rfl, exec_offers hp rfl, exec_offers hp rfl, exec_offers hp rfl,
      exec_offers hp rfl⟩
  · exact exec_of_mem_inert hp (by decide) hi

/-- Settles O8: the value of each ALU token in the naturals, and an ALU token applies nothing. -/
theorem aluTokensOfferTheirResult : Obligations.AluTokensOfferTheirResult := by
  intro s
  refine ⟨fun hp => ?_, fun hp i hi => ?_⟩
  · have hsub : (Reference.evalToken s .sub).toNat =
        if s.x.x2.toNat ≤ s.x.x1.toNat then s.x.x1.toNat - s.x.x2.toNat else 0 := by
      rw [evalToken_sub_toNat]; split <;> omega
    exact ⟨exec_offers hp (evalToken_add_toNat s), exec_offers hp hsub,
      exec_offers hp (evalToken_lt_toNat s), exec_offers hp (evalToken_gt_toNat s),
      exec_offers hp (evalToken_eq_toNat s), exec_offers hp (evalToken_overflow_toNat s)⟩
  · exact exec_of_mem_inert hp (by decide) hi

/-- Settles O18: the six bus values are the six results in the naturals, where the laws are arithmetic. -/
theorem aluLawsHold : Obligations.AluLawsHold := by
  intro s a d l g e o hp hb ha hd hl hg he ho
  rw [exec_bus_of_empty hp hb ha, exec_bus_of_empty hp hb hd, exec_bus_of_empty hp hb hl,
    exec_bus_of_empty hp hb hg, exec_bus_of_empty hp hb he, exec_bus_of_empty hp hb ho]
  have hzero : (0 : Nibble).toNat = 0 := rfl
  have hone : (1 : Nibble).toNat = 1 := rfl
  simp only [← BitVec.toNat_inj, hzero, hone, evalToken_add_toNat, evalToken_sub_toNat,
    evalToken_lt_toNat, evalToken_gt_toNat, evalToken_eq_toNat, evalToken_overflow_toNat]
  refine ⟨?_, fun hover => ?_, ?_, fun hover => ?_⟩
  · split_ifs <;> omega
  · split_ifs at hover; omega
  · simp [Nat.sub_eq_zero_iff_le]
  · split_ifs at hover; omega

/-- Settles O10: each write token with the gate closed, and the mutable class with it open. -/
theorem registerWritesStoreTheBus : Obligations.RegisterWritesStoreTheBus := by
  intro s hp
  refine ⟨fun h1 h2 => ?_, fun hopen i hi => ?_⟩
  · have hg : s.gate = false := by simp [State.gate_eq, h1, h2]
    exact ⟨exec_writeToken hp hg .x1, exec_writeToken hp hg .x2, exec_writeToken hp hg .x3,
      exec_writeToken hp hg .x4, exec_writeToken hp hg .x5, exec_writeToken hp hg .x6,
      exec_writeToken hp hg .x7, exec_writeToken hp hg .x8⟩
  · have hg : s.gate = true := by simpa [State.gate_eq] using hopen
    have hmutable : ∀ i ∈ [Instr.w1, .w2, .w3, .w4, .w5, .w6, .w7, .w8],
        Reference.isMutable i = true := by decide
    exact exec_of_gate hp hg (hmutable i hi)

/-- Settles O11: the set token of each latch on either side of its test of the bus. -/
theorem jumpTokensSetTheirLatch : Obligations.JumpTokensSetTheirLatch := by
  intro s hp
  have hset (k : Latch) (hb : 1 ≤ s.bus.toNat) : exec (setToken k) s = .next (s.setLatch k true) := by
    rw [exec_setToken hp, if_pos hb]
  have hkeep (k : Latch) (hb : s.bus = 0) : exec (setToken k) s = .next s := by
    rw [exec_setToken hp, if_neg (by simp [hb])]
  exact ⟨fun hb => ⟨hset .l1 hb, hset .l2 hb⟩, fun hb => ⟨hkeep .l1 hb, hkeep .l2 hb⟩⟩

/-- Settles O12: the clear token of each latch tests nothing. -/
theorem endTokensClearTheirLatch : Obligations.EndTokensClearTheirLatch := by
  intro s hp
  exact ⟨exec_clearToken hp .l1, exec_clearToken hp .l2⟩

/-- Settles O13: `HALT` on either side of the gate, and UNKNOWN. -/
theorem haltAndUnknownApplyNothing : Obligations.HaltAndUnknownApplyNothing := by
  intro s hp
  refine ⟨?_, exec_of_inert hp rfl rfl⟩
  rw [exec_eq_applyToken hp, applyToken_halt]

/-- Settles O14: each row is the fold of the spec's `apply`, every write token gated by the latches that
the tokens to its left left. -/
theorem threadedGateOrder : Obligations.ThreadedGateOrder := by
  intro s hp
  have hj1 (u : State) : Reference.applyToken s.bus u .j1 =
      if 1 ≤ s.bus.toNat then u.setLatch .l1 true else u := applyToken_setToken s.bus u .l1
  have he1 (u : State) : Reference.applyToken s.bus u .e1 = u.setLatch .l1 false :=
    applyToken_clearToken s.bus u .l1
  have hw3 (u : State) : Reference.applyToken s.bus u .w3 = gated (·.writeReg .x3 s.bus) u :=
    applyToken_writeToken s.bus u .x3
  have hw4 (u : State) : Reference.applyToken s.bus u .w4 = gated (·.writeReg .x4 s.bus) u :=
    applyToken_writeToken s.bus u .x4
  simp only [runTokens_apply_eq_foldl hp, List.foldl_cons, List.foldl_nil, hj1, he1, hw3, hw4]
  refine ⟨fun hb hl => ?_, fun hb hl => ?_, fun hb hl => ?_, fun hb hl => ?_⟩ <;>
    simp [hb, hl, gated, State.gate_eq, State.setLatch, Latches.set, State.writeReg, RegFile.set]

end Sys2Proof.Machine

/-! Cycles: what a cycle does with the tokens it has, what it changes and what it tells (spec/20_memory.md,
46_clock_driver.md, 47_run_loop.md). First the spec's cycle as a fold, then the state after a cycle, then
the statements. -/

namespace Sys2Proof.Machine

/-! Tokens that do nothing in either half of a cycle (rules R171, R172). -/

/-- The token is neither UNKNOWN nor `HALT`, the two that a cycle ignores. -/
def isActive (t : Instr) : Bool := t != .unknown && t != .halt

theorem eq_of_not_isActive {t : Instr} (h : isActive t = false) : t = .unknown ∨ t = .halt := by
  simpa [isActive, or_iff_not_imp_left] using h

section
variable (s : State) (i : Instruction)

theorem evalToken_of_not_isActive {t : Instr} (h : isActive t = false) :
    Reference.evalToken s t = 0 := by
  obtain rfl | rfl := eq_of_not_isActive h <;> rfl

theorem applyToken_of_not_isActive (b : Nibble) {t : Instr} (h : isActive t = false) :
    Reference.applyToken b s t = s := by
  obtain rfl | rfl := eq_of_not_isActive h
  · exact applyToken_of_inert b s rfl rfl
  · exact applyToken_halt b s

theorem busValue_filter_isActive :
    Reference.busValue s (i.filter isActive) = Reference.busValue s i := by
  induction i with
  | nil => rfl
  | cons t i ih =>
    cases h : isActive t with
    | true => rw [List.filter_cons_of_pos h, busValue_cons, busValue_cons, ih]
    | false => simp [h, ih, evalToken_of_not_isActive s h]

theorem foldl_applyToken_filter_isActive (b : Nibble) :
    (i.filter isActive).foldl (Reference.applyToken b) s = i.foldl (Reference.applyToken b) s := by
  induction i generalizing s with
  | nil => rfl
  | cons t i ih =>
    cases h : isActive t with
    | true => rw [List.filter_cons_of_pos h, List.foldl_cons, List.foldl_cons, ih]
    | false => simp [h, ih, applyToken_of_not_isActive s b h]

end

/-! Tokens that leave the latches alone commute (rules R61, R245). -/

/-- A token that is no latch token writes a register with the bus value or does nothing. -/
theorem applyToken_of_not_latchToken {i : Instr} (h : Reference.isLatchToken i = false) :
    (∃ r, i = Reference.writeToken r) ∨ ∀ b s, Reference.applyToken b s i = s := by
  obtain hw | hl | hinert := applyToken_cases i
  · exact .inl hw
  · simp [h] at hl
  · exact .inr hinert

/-- Two write tokens store the same bus value under the same gate, in either order. -/
theorem applyToken_writeToken_comm (b : Nibble) (s : State) (r q : Reg) :
    Reference.applyToken b (Reference.applyToken b s (Reference.writeToken r)) (Reference.writeToken q) =
      Reference.applyToken b (Reference.applyToken b s (Reference.writeToken q))
        (Reference.writeToken r) := by
  simp only [applyToken_writeToken]
  cases hg : s.gate with
  | true => simp only [gated_of_gate hg]
  | false =>
    have hgate (p : Reg) : (s.writeReg p b).gate = false := hg
    rw [gated_of_not_gate hg, gated_of_not_gate hg, gated_of_not_gate (hgate r),
      gated_of_not_gate (hgate q)]
    simp only [State.writeReg, RegFile.set_comm]

theorem applyToken_comm {t u : Instr} (ht : Reference.isLatchToken t = false)
    (hu : Reference.isLatchToken u = false) (b : Nibble) (s : State) :
    Reference.applyToken b (Reference.applyToken b s t) u =
      Reference.applyToken b (Reference.applyToken b s u) t := by
  obtain ⟨r, rfl⟩ | ht := applyToken_of_not_latchToken ht
  · obtain ⟨q, rfl⟩ | hu := applyToken_of_not_latchToken hu
    · exact applyToken_writeToken_comm b s r q
    · rw [hu, hu]
  · rw [ht, ht]

/-! What a cycle writes (rules R23, R131). -/

theorem applyToken_x_of_latchToken (b : Nibble) (s : State) {i : Instr}
    (h : Reference.isLatchToken i = true) : (Reference.applyToken b s i).x = s.x := by
  obtain ⟨k, rfl⟩ | ⟨k, rfl⟩ | hi := latchToken_cases i
  · rw [applyToken_setToken]; split <;> rfl
  · rw [applyToken_clearToken, State.setLatch_x]
  · simp [hi] at h

/-- A token changes a register only if it is its write token, and then to the bus value. -/
theorem applyToken_x_get (b : Nibble) (s : State) (i : Instr) (r : Reg) :
    (Reference.applyToken b s i).x.get r = s.x.get r ∨
      (i = Reference.writeToken r ∧ (Reference.applyToken b s i).x.get r = b) := by
  obtain ⟨q, rfl⟩ | hl | hinert := applyToken_cases i
  · rw [applyToken_writeToken, gated]
    split
    · exact .inl rfl
    · by_cases hq : r = q
      · subst hq; exact .inr ⟨rfl, RegFile.get_set_same _ _ _⟩
      · exact .inl (RegFile.get_set_other _ _ _ _ hq)
  · exact .inl (by rw [applyToken_x_of_latchToken b s hl])
  · exact .inl (by rw [hinert])

theorem foldl_applyToken_x_get (b : Nibble) (s : State) (i : Instruction) (r : Reg) :
    (i.foldl (Reference.applyToken b) s).x.get r = s.x.get r ∨
      (Reference.writeToken r ∈ i ∧ (i.foldl (Reference.applyToken b) s).x.get r = b) := by
  induction i generalizing s with
  | nil => exact .inl rfl
  | cons t i ih =>
    obtain hrest | ⟨hmem, hb⟩ := ih (Reference.applyToken b s t)
    · rw [List.foldl_cons, hrest]
      exact (applyToken_x_get b s t r).imp_right fun ⟨ht, hb⟩ => ⟨ht ▸ List.mem_cons_self, hb⟩
    · exact .inr ⟨List.mem_cons_of_mem t hmem, hb⟩

/-! The state after a cycle, and the step that runs it. -/

theorem clockCycle_eq_afterCycle (i : Instruction) (s : State) :
    clockCycle i s = .next (s.afterCycle i) := by
  rw [clockCycle_eq_reference]
  exact congrArg _ (clockCycle_frame (clockCycle_eq_reference i s))

/-- Every cycle overwrites the scratch pair before it reads it (rule R39; log 3). -/
theorem withScratch_afterCycle (s : State) (b : Nibble) (p : Phase) (i : Instruction) :
    (s.withScratch b p).afterCycle i = s.afterCycle i := by
  have hopen : clockCycle i (s.withScratch b p) = clockCycle i s := rfl
  rw [clockCycle_eq_afterCycle, clockCycle_eq_afterCycle] at hopen
  exact Host.Outcome.next.inj hopen

@[simp] theorem afterCycle_n (s : State) (i : Instruction) : (s.afterCycle i).n = s.n := rfl

@[simp] theorem afterCycle_program (s : State) (i : Instruction) :
    (s.afterCycle i).program = s.program := s.advance_program

@[simp] theorem finishCycle_bus (before s : State) : (finishCycle before s).bus = s.bus := by
  rw [finishCycle_frame]

@[simp] theorem finishCycle_phase (before s : State) : (finishCycle before s).phase = s.phase := by
  rw [finishCycle_frame]

/-- The end of a cycle tells the observer of a changed output register (rule R196). -/
theorem finishCycle_events (before s : State) : (finishCycle before s).events = s.events ++
    if s.output = before.output then [] else [.notify s.n (s.n / s.program.length) s.output] := by
  rw [finishCycle, notifyChange_eq, State.countCycle_events]

/-! The statements of the family. -/

/-- Settles O19: UNKNOWN and `HALT` offer 0 to the bus and apply nothing, so neither fold meets them. -/
theorem unknownAndHaltTokensAreAbsorbed : Obligations.UnknownAndHaltTokensAreAbsorbed := by
  intro i s
  have hcycle : Reference.cycle (i.filter isActive) s = Reference.cycle i s := by
    rw [Reference.cycle, busValue_filter_isActive, foldl_applyToken_filter_isActive, Reference.cycle]
  change clockCycle i s = clockCycle (i.filter isActive) s
  rw [clockCycle_eq_reference, clockCycle_eq_reference, hcycle]

/-- Settles O20: the bus asks only which tokens there are, and tokens that leave the latches alone commute
in the Write Applier. -/
theorem orderIsFreeWithoutLatchTokens : Obligations.OrderIsFreeWithoutLatchTokens := by
  intro i j s hperm hlatch
  have hbus : Reference.busValue s i = Reference.busValue s j :=
    busValue_eq_of_same_tokens s fun _ => hperm.mem_iff
  have hcycle : Reference.cycle i s = Reference.cycle j s := by
    rw [Reference.cycle, Reference.cycle, hbus]
    exact hperm.foldl_eq' (fun t ht u hu _ => applyToken_comm (hlatch t ht) (hlatch u hu) _ _) s
  rw [clockCycle_eq_reference, clockCycle_eq_reference, hcycle]

/-- Settles O22: in the fold of rule R180 a register keeps its value or takes the one bus value. -/
theorem registersChangeOnlyToTheCyclesBus : Obligations.RegistersChangeOnlyToTheCyclesBus := by
  intro s t i r h hstep hne
  rw [step_of_runsCycle h] at hstep
  cases hstep
  rw [finishCycle_x] at hne ⊢
  obtain hsame | ⟨hmem, hbus⟩ :=
    foldl_applyToken_x_get (BitVec.ofNat 4 (Reference.busValue s i)) s i r
  · exact absurd hsame hne
  · exact ⟨hmem, (congrArg BitVec.toNat hbus).trans (ofNat_busValue_toNat s i)⟩

/-- Settles O24: the cycle itself leaves count, status and events alone, and its end notifies and counts. -/
theorem cyclesCountAndNotify : Obligations.CyclesCountAndNotify := by
  intro s i h
  have ⟨hr, _⟩ := h
  refine ⟨_, step_of_runsCycle h, finishCycle_n _ _, (finishCycle_status _ _).trans hr, ?_⟩
  rw [finishCycle_events, finishCycle_x, afterCycle_program]
  rfl

/-- Settles O33: opening a cycle overwrites the scratch pair, and advancing clears it. -/
theorem busDoesNotOutliveItsCycle : Obligations.BusDoesNotOutliveItsCycle := by
  intro s i b p h
  have hscratch : (s.withScratch b p).runsCycle i := h
  refine ⟨?_, _, step_of_runsCycle h, finishCycle_bus _ _, finishCycle_phase _ _⟩
  change step (s.withScratch b p) = step s
  rw [step_of_runsCycle hscratch, step_of_runsCycle h, withScratch_afterCycle]
  rfl

/-- Settles O36: a step with either latch set and no token to clear it freezes the registers. -/
theorem openWindowFreezesRegisters : Obligations.OpenWindowFreezesRegisters :=
  fun _ _ _ hf h => ⟨fun hk hclear => step_freezes (k := .l1) hf hk hclear h,
    fun hk hclear => step_freezes (k := .l2) hf hk hclear h⟩

end Sys2Proof.Machine

/-! Run Loop: how a turn ends, what it fetches, and the invariant that every step keeps
(spec/47_run_loop.md). First the turn, then the events of a run, then the statements. -/

namespace Sys2Proof.Machine

/-! The turns that end a run (rules R191, R193). -/

section
variable {s : State} {i : Instruction} (hr : s.status = .running) (hf : s.fetch = some i)
include hr hf

theorem step_of_haltNow (hhalt : haltNow i s = true) : step s = .next (s.endRun .halted) := by
  simp [step, runLoopStep, hr, hf, runLoopTurn, hhalt]

theorem step_at_cap (hhalt : haltNow i s = false) (hcap : s.cap ≤ s.n) :
    step s = .next (s.endRun .cap) := by
  simp [step, runLoopStep, hr, hf, runLoopTurn, hhalt, hcap]

end

/-! The turn that runs a cycle (rules R180, R190). -/

theorem andThen_assoc (o : Outcome) (f g : State → Outcome) :
    andThen (andThen o f) g = andThen o fun s => andThen (f s) g := by
  cases o <;> rfl

theorem andThen_next (o : Outcome) : andThen o .next = o := by
  cases o <;> rfl

/-- Where a cycle runs, the step is the two runs of the tokens with what stands around them. -/
theorem step_eq_runTokens {s : State} {i : Instruction} (h : s.runsCycle i) :
    step s = andThen (runTokens i s.openCycle) fun e =>
      andThen (runTokens i e.enterApply) fun a => .next (finishCycle s a.advance) := by
  have hcycle : step s = andThen (clockCycle i s) fun t => .next (finishCycle s t) := by
    rw [step_of_runsCycle h, clockCycle_eq_afterCycle, andThen]
  rw [hcycle, clockCycle, andThen_assoc]
  simp only [andThen_assoc]
  rfl

/-- The run of one token is one `exec`. -/
theorem runTokens_singleton (t : Instr) (s : State) : runTokens [t] s = exec t s :=
  andThen_next (exec t s)

/-! The placing of an instruction (log 17). -/

@[simp] theorem Tape.replaceCurrent_current (t : Tape) (codes : CodedInstruction) :
    (t.replaceCurrent codes).current = codes := by
  simp [Tape.current, Tape.replaceCurrent]

@[simp] theorem Tape.single_current (codes : CodedInstruction) :
    (Tape.single codes).current = codes := rfl

@[simp] theorem placeInstruction_fetch (s : State) (codes : CodedInstruction) :
    (s.placeInstruction codes).fetch = some (decodeInstruction codes) := by
  cases ht : s.tape <;> simp [State.fetch, State.placeInstruction, ht]

/-- A placed instruction has a cycle left under the cap. -/
theorem placeInstruction_n_lt_cap (s : State) (codes : CodedInstruction) :
    (s.placeInstruction codes).n < (s.placeInstruction codes).cap := by
  change s.n < if s.n < s.cap then s.cap else s.n + 1
  split <;> omega

theorem decodeTableWord_eq_some {nbits w : Nat} {i : Instr} (h : decodeTableWord nbits w = some i) :
    decodeCode (BitVec.ofNat 6 w) = i := by
  unfold decodeTableWord at h
  split at h
  · exact Option.some.inj h
  · cases h

/-! The events of a run, read from the oldest (rules R196, R199, R204). -/

section
variable (s : State) (lo : Nat)

@[simp] theorem eventsOk_nil : s.eventsOk lo [] = true ↔ s.status = .running := beq_iff_eq

@[simp] theorem eventsOk_notify_cons (c p : Nat) (v : Nibble) (es : List Event) :
    s.eventsOk lo (.notify c p v :: es) = true ↔
      lo ≤ c ∧ c < s.n ∧ p = c / s.program.length ∧ s.eventsOk (c + 1) es = true := by
  simp [State.eventsOk, and_assoc]

@[simp] theorem eventsOk_final_cons (v : Nibble) (m : Nat) (why : StopReason) (es : List Event) :
    s.eventsOk lo (.final v m why :: es) = true ↔
      es = [] ∧ s.status = .ended why ∧ v = s.output ∧ m = s.n := by
  simp [State.eventsOk, and_assoc]

end

/-- A lower bound on the cycle indices can be lowered. -/
theorem eventsOk_mono {s : State} {lo lo' : Nat} {es : List Event} (hle : lo' ≤ lo)
    (h : s.eventsOk lo es = true) : s.eventsOk lo' es = true := by
  match es with
  | [] => simpa using h
  | .notify c p v :: es =>
    obtain ⟨hlo, hrest⟩ := (eventsOk_notify_cons ..).1 h
    exact (eventsOk_notify_cons ..).2 ⟨hle.trans hlo, hrest⟩
  | .final v m why :: es => simpa using h

/-- The events of a running state, with later ones that agree with a later state from the count on, agree
with the later state. -/
theorem eventsOk_append {s t : State} {es tail : List Event} (hr : s.status = .running)
    (hn : s.n ≤ t.n) (hp : t.program = s.program) (htail : t.eventsOk s.n tail = true) {lo : Nat}
    (hlo : lo ≤ s.n) (h : s.eventsOk lo es = true) : t.eventsOk lo (es ++ tail) = true := by
  induction es generalizing lo with
  | nil => exact eventsOk_mono hlo htail
  | cons e es ih =>
    cases e with
    | notify c p v =>
      obtain ⟨hle, hlt, hpass, hrest⟩ := (eventsOk_notify_cons ..).1 h
      exact (eventsOk_notify_cons ..).2 ⟨hle, hlt.trans_le hn, hp ▸ hpass, ih hlt hrest⟩
    | final v m why =>
      obtain ⟨_, hended, _⟩ := (eventsOk_final_cons ..).1 h
      simp [hr] at hended

/-- Each notification is of a cycle of its own below the count (rule R204). -/
theorem notifyCount_le {s : State} {lo : Nat} {es : List Event} (h : s.eventsOk lo es = true) :
    notifyCount es ≤ s.n - lo := by
  induction es generalizing lo with
  | nil => exact Nat.zero_le _
  | cons e es ih =>
    cases e with
    | notify c p v =>
      obtain ⟨hle, hlt, _, hrest⟩ := (eventsOk_notify_cons ..).1 h
      have hcount : notifyCount (.notify c p v :: es) = notifyCount es + 1 := by simp [notifyCount]
      have := ih hrest
      omega
    | final v m why =>
      obtain ⟨rfl, _⟩ := (eventsOk_final_cons ..).1 h
      exact Nat.zero_le _

/-- A final event carries the state's output, count and reason (rule R199). -/
theorem final_of_eventsOk {s : State} {lo : Nat} {es : List Event} (h : s.eventsOk lo es = true)
    {v : Nibble} {m : Nat} {why : StopReason} (hmem : Event.final v m why ∈ es) :
    s.status = .ended why ∧ v = s.output ∧ m = s.n := by
  induction es generalizing lo with
  | nil => cases hmem
  | cons e es ih =>
    cases e with
    | notify c p u =>
      obtain ⟨_, _, _, hrest⟩ := (eventsOk_notify_cons ..).1 h
      exact ih hrest ((List.mem_cons.1 hmem).resolve_left Event.noConfusion)
    | final u k why' =>
      obtain ⟨rfl, hfinal⟩ := (eventsOk_final_cons ..).1 h
      cases List.mem_singleton.1 hmem
      exact hfinal

/-- Where the run does not go on, its final event is there (rule R199). -/
theorem exists_final_of_eventsOk {s : State} {lo : Nat} {es : List Event}
    (hs : s.status ≠ .running) (h : s.eventsOk lo es = true) :
    ∃ v m why, Event.final v m why ∈ es := by
  induction es generalizing lo with
  | nil => exact absurd ((eventsOk_nil s lo).1 h) hs
  | cons e es ih =>
    cases e with
    | notify c p u =>
      obtain ⟨_, _, _, hrest⟩ := (eventsOk_notify_cons ..).1 h
      obtain ⟨v, m, why, hmem⟩ := ih hrest
      exact ⟨v, m, why, List.mem_cons_of_mem _ hmem⟩
    | final v m why => exact ⟨v, m, why, List.mem_cons_self⟩

/-! The invariant (rules R25, R37, R39, R184, R191-R199). -/

theorem statusOk_of_running {s : State} (h : s.status = .running) : s.statusOk = true := by
  simp [State.statusOk, h]

@[simp] theorem endRun_fetch (s : State) (why : StopReason) : (s.endRun why).fetch = s.fetch := rfl

@[simp] theorem haltNow_endRun (i : Instruction) (s : State) (why : StopReason) :
    haltNow i (s.endRun why) = haltNow i s := rfl

/-- A run that ended by the cap has run `CAP` cycles (rule R193). -/
theorem n_eq_cap_of_statusOk {s : State} (h : s.statusOk = true) (hs : s.status = .ended .cap) :
    s.n = s.cap := by
  cases hf : s.fetch with
  | none => simp [State.statusOk, hs, hf] at h
  | some i =>
    simp only [State.statusOk, hs, hf, Bool.and_eq_true, beq_iff_eq] at h
    exact h.left

/-- Ending the run with a reason that the state bears out keeps the invariant. -/
theorem endRun_keeps_inv {s : State} {why : StopReason} (hinv : s.Inv) (hr : s.status = .running)
    (hstatus : (s.endRun why).statusOk = true) : (s.endRun why).Inv := by
  obtain ⟨hpc, hn, hbus, hphase, _, hevents⟩ := hinv
  have hfinal : (s.endRun why).eventsOk s.n [.final s.output s.n why] = true :=
    (eventsOk_final_cons ..).2 ⟨rfl, rfl, rfl, rfl⟩
  exact ⟨hpc, hn, hbus, hphase, hstatus,
    eventsOk_append (t := s.endRun why) hr le_rfl rfl hfinal (Nat.zero_le _) hevents⟩

/-- Running a cycle under the cap keeps the invariant. -/
theorem cycle_keeps_inv {s : State} {i : Instruction} (hinv : s.Inv) (h : s.runsCycle i) :
    (finishCycle s (s.afterCycle i)).Inv := by
  obtain ⟨hpc, hn, _, _, _, hevents⟩ := hinv
  have ⟨hr, hf, _, hcap⟩ := h
  have hprogram : (finishCycle s (s.afterCycle i)).program = s.program :=
    (finishCycle_program _ _).trans (afterCycle_program s i)
  have hrunning : (finishCycle s (s.afterCycle i)).status = .running :=
    (finishCycle_status _ _).trans hr
  have hcount : (finishCycle s (s.afterCycle i)).n = s.n + 1 := finishCycle_n _ _
  have hnext : (finishCycle s (s.afterCycle i)).pc = (s.pc + 1) % s.program.length :=
    (finishCycle_pc _ _).trans (State.advance_pc (tape_isSome_of_fetch hf))
  refine ⟨?_, ?_, finishCycle_bus _ _, finishCycle_phase _ _, statusOk_of_running hrunning, ?_⟩
  · rw [hnext, hcount, hprogram, hpc, Nat.mod_add_mod]
  · rw [hcount, finishCycle_cap]; exact hcap
  · rw [finishCycle_events]
    refine eventsOk_append hr (by omega) hprogram ?_ (Nat.zero_le _) hevents
    split
    · exact (eventsOk_nil ..).2 hrunning
    · refine (eventsOk_notify_cons ..).2 ⟨le_rfl, ?_, ?_, (eventsOk_nil ..).2 hrunning⟩
      · rw [hcount]; exact Nat.lt_succ_self _
      · rw [hprogram, afterCycle_program, afterCycle_n]

/-! The statements of the family. -/

/-- Settles O39: of the three things a turn can do, each keeps the invariant, and a step that is no turn
changes nothing. -/
theorem everyStepKeepsTheInvariant : Obligations.EveryStepKeepsTheInvariant := by
  intro s t hinv h
  cases hr : s.status with
  | ended why => rw [step_of_ended hr] at h; cases h; exact hinv
  | running =>
    cases hf : s.fetch with
    | none => rw [step_of_no_tape (fetch_eq_none.1 hf)] at h; cases h; exact hinv
    | some i =>
      have ⟨_, hn, _⟩ := hinv
      obtain ⟨hhalt, rfl⟩ | ⟨hhalt, hcap, rfl⟩ | ⟨hhalt, hcap, _⟩ := step_cases hr hf h
      · exact endRun_keeps_inv hinv hr (by simp [State.statusOk, hf, hhalt])
      · have hreached : s.n = s.cap := le_antisymm hn hcap
        exact endRun_keeps_inv hinv hr (by simp [State.statusOk, hf, hhalt, hreached])
      · have hcycle : s.runsCycle i := ⟨hr, hf, hhalt, hcap⟩
        rw [step_of_runsCycle hcycle] at h
        cases h
        exact cycle_keeps_inv hinv hcycle

/-- Settles O44: the invariant's clauses on events and status, read off one by one. -/
theorem runTotalsHold : Obligations.RunTotalsHold := by
  intro s ⟨_, hn, _, _, hstatus, hevents⟩
  refine ⟨notifyCount_le hevents, hn, fun v m why hmem => ?_,
    fun hs => exists_final_of_eventsOk hs hevents⟩
  obtain ⟨hended, hv, hm⟩ := final_of_eventsOk hevents hmem
  refine ⟨hm, hv, ?_, hended⟩
  rintro rfl
  exact hm.trans (n_eq_cap_of_statusOk hstatus hended)

/-- Settles O40: at reset there is no tape, no cycle and no event. -/
theorem resetMeetsTheInvariant : Obligations.ResetMeetsTheInvariant := by
  unfold Obligations.ResetMeetsTheInvariant
  decide

/-- Settles O25: the halt test, then its turn. -/
theorem haltEndsTheRun : Obligations.HaltEndsTheRun :=
  fun _ hr hf h1 h2 => step_of_haltNow hr hf (haltNow_iff.2 ⟨rfl, h1, h2⟩)

/-- Settles O27: the failed halt test, then the turn at the cap. -/
theorem capEndsTheRun : Obligations.CapEndsTheRun :=
  fun _ _ hr hf hhalt hcap => step_at_cap hr hf (Bool.eq_false_iff.2 (mt haltNow_iff.1 hhalt)) hcap

/-- Settles O28: a step after the end answers the same state, and so does every run. -/
theorem endedRunIsFrozen : Obligations.EndedRunIsFrozen :=
  fun _ _ k h => run_of_step_fixed (step_of_ended h) k

/-- Settles O31: a cycle taken apart into its two runs, each of them one `exec` where there is one token. -/
theorem stepRunsTheDecodedInstruction : Obligations.StepRunsTheDecodedInstruction := by
  refine ⟨fun s codes _ h => step_eq_runTokens h, fun s c _ h => ?_⟩
  simpa only [runTokens_singleton] using step_eq_runTokens h

/-- Settles O32: the placed code is what stands at the position, and nothing else of the machine's own
state is touched. -/
theorem placedWordIsFetchedNext : Obligations.PlacedWordIsFetchedNext := by
  intro s w i h
  refine ⟨?_, rfl, placeInstruction_n_lt_cap _ _, rfl, rfl, rfl⟩
  rw [State.withFetchWord, placeInstruction_fetch, ← decodeTableWord_eq_some h]
  rfl

end Sys2Proof.Machine

/-! Construction: what the host's launch gives, and which launches are refused (spec/60_exceptions.md,
70_reset_and_hazards.md). First the checks and the two answers of construction, then the statements. -/

namespace Sys2Proof.Machine

/-! The three checks of rule R215. -/

theorem wellFormed_iff (l : Launch) : l.wellFormed = true ↔
    l.program ≠ [] ∧ l.inputs.length = 5 ∧ l.inputsInRange = true := by
  simp [Launch.wellFormed, Launch.programNonempty, Launch.inputCountOk, Config.numInputs, and_assoc]

/-- The tape of a program with an instruction holds its codes, the position at the first (rule R231). -/
theorem ofProgram_of_ne_nil {p : List Instruction} (h : p ≠ []) :
    ∃ tape, Tape.ofProgram p = some tape ∧ tape.instructions = encodeProgram p ∧
      (tape.pc : Nat) = 0 := by
  cases p with
  | nil => exact absurd rfl h
  | cons i is => exact ⟨_, rfl, rfl, rfl⟩

theorem ofProgram_nil : Tape.ofProgram [] = none := rfl

theorem exists_of_length_eq_five {α : Type} {l : List α} (h : l.length = 5) :
    ∃ a b c d e, l = [a, b, c, d, e] :=
  match l, h with
  | [a, b, c, d, e], _ => ⟨a, b, c, d, e, rfl⟩

/-- The state that construction answers: reset with what the host supplies (rules R41, R230). -/
def launched (tape : Tape) (initX : RegFile) (g : Inputs) (cap : Nat) : State :=
  { State.reset with x := initX, g := g, tape := some tape, cap := cap }

/-- A tape whose position is 0 is launched in a state that meets the invariant. -/
theorem launched_inv {tape : Tape} (hpc : (tape.pc : Nat) = 0) (initX : RegFile) (g : Inputs)
    (cap : Nat) : (launched tape initX g cap).Inv :=
  ⟨hpc.trans (Nat.zero_mod _).symm, Nat.zero_le _, rfl, rfl, rfl, rfl⟩

/-- An input in range is kept exactly in 4 bits (rule R33). -/
theorem ofNat_toNat_of_inRange {v : Int} (h : 0 ≤ v ∧ v ≤ 15) :
    ((BitVec.ofNat 4 v.toNat).toNat : Int) = v := by
  rw [BitVec.toNat_ofNat]
  omega

/-- A well-formed launch constructs a machine: its tape holds the program and its inputs are those
supplied. -/
theorem construct_of_wellFormed {l : Launch} (h : l.wellFormed = true) (initX : RegFile) :
    ∃ tape g, construct l initX = .next (launched tape initX g l.cap) ∧
      tape.instructions = encodeProgram l.program ∧ (tape.pc : Nat) = 0 ∧
      l.inputs = [(g.g1.toNat : Int), g.g2.toNat, g.g3.toNat, g.g4.toNat, g.g5.toNat] := by
  obtain ⟨hprogram, hcount, hrange⟩ := (wellFormed_iff l).1 h
  obtain ⟨tape, htape, hcodes, hpc⟩ := ofProgram_of_ne_nil hprogram
  obtain ⟨a, b, c, d, e, hinputs⟩ := exists_of_length_eq_five hcount
  have hin := (inputsInRange_iff l).1 hrange
  refine ⟨tape, inputsOf a b c d e, ?_, hcodes, hpc, ?_⟩
  · simp [construct, htape, hinputs, hrange, launched]
  · simp only [hinputs, List.forall_mem_cons] at hin
    obtain ⟨ha, hb, hc, hd, he, _⟩ := hin
    simp only [hinputs, inputsOf, ofNat_toNat_of_inRange ha, ofNat_toNat_of_inRange hb,
      ofNat_toNat_of_inRange hc, ofNat_toNat_of_inRange hd, ofNat_toNat_of_inRange he]

/-- A launch that fails a check is refused (rule R215). -/
theorem construct_of_not_wellFormed {l : Launch} (h : l.wellFormed ≠ true) (initX : RegFile) :
    ∃ r, construct l initX = .refused r := by
  unfold construct
  split
  · exact ⟨_, rfl⟩
  · next htape hinputs =>
    split
    · next hrange =>
      have hprogram : l.program ≠ [] := fun hnil => by simp [hnil, ofProgram_nil] at htape
      exact absurd ((wellFormed_iff l).2 ⟨hprogram, by rw [hinputs]; rfl, hrange⟩) h
    · exact ⟨_, rfl⟩
  · exact ⟨_, rfl⟩

/-- Decoding the codes of a program gives it back (rules R25, R83). -/
theorem map_decodeInstruction_encodeProgram (p : List Instruction) :
    (encodeProgram p).map decodeInstruction = p := by
  simp [encodeProgram, Function.comp_def]

/-! The statements of the family. -/

/-- Settles O42: what a well-formed launch constructs, field by field. -/
theorem launchGivesTheResetState : Obligations.LaunchGivesTheResetState := by
  intro l initX h
  obtain ⟨tape, g, hstate, hcodes, hpc, hinputs⟩ := construct_of_wellFormed h initX
  refine ⟨_, hstate, launched_inv hpc initX g l.cap, rfl, rfl, hpc, rfl, rfl, rfl, rfl, ?_, hinputs⟩
  exact (congrArg _ hcodes).trans (map_decodeInstruction_encodeProgram l.program)

/-- Settles O43: construction refuses exactly the launches that fail a check, and the checks are the three
of rule R215. -/
theorem illFormedLaunchIsRefused : Obligations.IllFormedLaunchIsRefused := by
  intro l initX
  have hrefused : (∃ r, construct l initX = .refused r) ↔ ¬ l.wellFormed = true := by
    refine ⟨fun ⟨r, hr⟩ hwf => ?_, fun h => construct_of_not_wellFormed h initX⟩
    obtain ⟨tape, g, hstate, _⟩ := construct_of_wellFormed hwf initX
    exact absurd (hr.symm.trans hstate) nofun
  rw [hrefused, wellFormed_iff, inputsInRange_iff]
  simp only [not_and_or, not_forall, not_le, not_not, exists_prop, ne_eq]

/-- Settles O41: every register and latch of the reset state, then its other fields. -/
theorem resetValues : Obligations.ResetValues := by
  refine ⟨fun r => ?_, fun k => ?_, rfl, rfl, rfl, rfl, rfl, fun i => ?_⟩
  · cases r <;> rfl
  · cases k <;> rfl
  · cases i <;> rfl

end Sys2Proof.Machine
